-- ==== Sys2Proof/Word.lean ====
section
/-! DEFINITION. The words of the HRG-430: bytes, air time, channel indices (00_scope.md, Conventions). -/

namespace Sys2Proof

/-- One byte of a record or of a host frame. -/
abbrev Byte := BitVec 8

/-- Air time (AT): a count of microseconds that wraps modulo 2^32 (00_scope.md, Air time). -/
abbrev AT := BitVec 32

/-- A channel index that is in range, 0 to 37 (00_scope.md, Channel index). -/
abbrev Chan := Fin 38

/-- The 38 channel indices in index order. -/
def allChans : List Chan := List.finRange 38

end Sys2Proof
end

