-- ==== Sys2Proof/Machine/Arith.lean ====
section
/-! DEFINITION. The arithmetic of the opening file: air time compared by signed difference, intervals, clamps, truncated and
rounded-up divisions. -/

namespace Sys2Proof.Machine

/-- The difference `a - b` of two AT values as a signed 32-bit value (00_scope.md, Air time). -/
def tdiff (a b : AT) : Int := (a - b).toInt

/-- The instant `n` µs after `a`. -/
def addUs (a : AT) (n : Nat) : AT := a + BitVec.ofNat 32 n

/-- The instant `i` µs after `a` (before it, when `i` is negative). -/
def addInt (a : AT) (i : Int) : AT := a + BitVec.ofInt 32 i

/-- AT has reached the instant `due`. -/
def reached (due now : AT) : Bool := decide (0 ≤ tdiff now due)

/-- The instant `due` has already passed. -/
def passed (due now : AT) : Bool := decide (0 < tdiff now due)

/-- The later of two instants. -/
def later (a b : AT) : AT := if 0 ≤ tdiff a b then a else b

/-- `x` clamped to `lo`–`hi`. -/
def clampNat (lo hi x : Nat) : Nat := min hi (max lo x)

/-- An integer clamped to `lo`–`hi`. -/
def clampInt (lo hi x : Int) : Int := min hi (max lo x)

/-- trunc(x/y): division rounded toward zero. -/
def truncDiv (x y : Int) : Int := Int.tdiv x y

/-- ceil(x/y) of non-negative numbers. -/
def ceilDiv (x y : Nat) : Nat := (x + y - 1) / y

/-- `x` moved the fraction 1/d of the way toward `f`, truncated toward zero. -/
def moveToward (x f d : Nat) : Nat := ((x : Int) + truncDiv ((f : Int) - x) d).toNat

/-- A count that rises by one and stays at its maximum. -/
def satInc (cap n : Nat) : Nat := min cap (n + 1)

/-- Whether the intervals [a.1, a.2) and [b.1, b.2) have an instant in common. -/
def overlaps (a b : Int × Int) : Bool := a.1 < a.2 && b.1 < b.2 && a.1 < b.2 && b.1 < a.2

/-- The interval from `start` to `stop`, counted from `base`. -/
def spanFrom (base start stop : AT) : Int × Int := (tdiff start base, tdiff stop base)

/-- An interval cut to [lo, hi). -/
def clip (lo hi : Int) (i : Int × Int) : Int × Int := (max lo i.1, min hi i.2)

/-- Insertion of an interval in order of start. -/
def insertByStart (i : Int × Int) : List (Int × Int) → List (Int × Int)
  | [] => [i]
  | j :: rest => if i.1 < j.1 then i :: j :: rest else j :: insertByStart i rest

/-- The union of intervals given in order of start, as disjoint intervals in order of start; `cur` is the one being
grown. -/
def mergeFrom (cur : Int × Int) : List (Int × Int) → List (Int × Int)
  | [] => [cur]
  | j :: rest => if j.1 ≤ cur.2 then mergeFrom (cur.1, max cur.2 j.2) rest else cur :: mergeFrom j rest

/-- The union of intervals, empty ones left out, as disjoint intervals in order of start. -/
def unionOf (is : List (Int × Int)) : List (Int × Int) :=
  match (is.filter fun i => decide (i.1 < i.2)).foldr insertByStart [] with
  | [] => []
  | i :: rest => mergeFrom i rest

/-- The total length of disjoint intervals. -/
def totalLength (is : List (Int × Int)) : Nat := (is.map fun i => (i.2 - i.1).toNat).sum

/-- Insertion in increasing order. -/
def insertInt (x : Int) : List Int → List Int
  | [] => [x]
  | y :: rest => if x ≤ y then x :: y :: rest else y :: insertInt x rest

end Sys2Proof.Machine
end

