-- ==== Sys2Proof/Config.lean ====
section
/-! DEFINITION. The constants the spec fixes for the part. No open constant is needed: the spec leaves no value of any
command's result undefined (INVENTORY.md, State). -/

namespace Sys2Proof.Config

/-- R194: part code 0430h and revision 02h. -/
def partCode : Nat := 0x0430
def revision : Nat := 0x02

/-- R13, R15: the tune timeout and the close wait, in µs. -/
def tuneTimeoutUs : Nat := 2000
def closeWaitUs : Nat := 2000

/-- R16, R17: the time between retries in FAULT, in µs. -/
def retryUs : Nat := 100000

/-- R8: the empty-plan completion timer, in µs. -/
def emptyPlanUs : Nat := 1000000

/-- R18: a WATCH dwell's length and a REFERENCE dwell's length, in ms. -/
def watchMs : Nat := 45
def referenceMs : Nat := 2

/-- R20: the watch interval of a tracker in SEARCH, in µs. -/
def searchWatchUs : Nat := 100000

/-- R29 to R31: the longest frame, the shortest burst offered and the longest oven burst, in µs. -/
def frameMaxUs : Nat := 5484
def offerMinUs : Nat := 1000
def ovenMaxUs : Nat := 12000

/-- R58: the search time of one candidate, in µs. -/
def searchUs : Nat := 400000

/-- R79: one second of the bar clock in µs, and its last value. -/
def secondUs : Nat := 1000000
def barClockMax : Nat := 4294967295

/-- R93: the accumulator's maximum. -/
def accumulatorMax : Nat := 4294967295

/-- R94: the neighbour table's size. -/
def tableSize : Nat := 64

/-- R119: one beacon interval and the time to move and confirm, in µs. -/
def beaconUs : Nat := 102400
def confirmUs : Nat := 1000000

/-- R134, R136, R137: expiry after a grant's end, the length of a recent-grant list and an entry's age limit. -/
def expiryUs : Nat := 500
def listSize : Nat := 16
def entryAgeUs : Nat := 200000

/-- R133, R139: the retry a HELD gate answers with, in µs. -/
def heldRetryUs : Nat := 1000

/-- R197: the deadline of a RESET PART whose OK is not read, in µs. -/
def resetPartUs : Nat := 100000

/-- The largest value of the 16-bit saturating counts (R165, R187). -/
def countMax : Nat := 65535

end Sys2Proof.Config
end

