-- ==== Sys2Proof/Syntax.lean ====
section
/-! DEFINITION. The commands of the HRG-430: one constructor for each row of spec/opcode_table.json. `now` is the AT at
which a command is handled (00_scope.md: "Now" means the AT of the event being handled). Raw operands are as the wire
carries them. -/

namespace Sys2Proof

/-- The two serving radios, on radio ports 0 and 1. -/
inductive Radio
  | r0
  | r1
deriving DecidableEq, Repr

/-- The three oven trackers. -/
inductive TrackerId
  | t0
  | t1
  | t2
deriving DecidableEq, Repr

/-- The two bands (00_scope.md, Channel index). -/
inductive Band
  | ghz24
  | ghz5
deriving DecidableEq, Repr

/-- The two moments of a read transaction (R185, R189): its first byte, FFh; and the deselection that ends it, after `extra`
further bytes. -/
inductive ReadMoment
  | firstByte
  | deselection (extra : Nat)
deriving DecidableEq, Repr

/-- One command of the block. A host command's row (`readIdentity` to `readLink`, `unknownCommand`) is the handling of
the command in hand (R188), whose arguments are in the frame that WRITE_TRANSACTION brought. -/
inductive Instr
  /-- R199: the RESET line goes low, or (`powerOn`) power is applied. -/
  | fullReset (powerOn : Bool)
  /-- R200, R202: RESET is high with power stable; the straps as they stand. -/
  | startInstant (dom mh : BitVec 2)
  /-- R185 to R187: the bytes shifted in, up to the deselection. -/
  | writeTransaction (now : AT) (bytes : List Byte)
  /-- R185, R189: a read transaction, at its first byte and at its deselection (log entry 8). -/
  | readTransaction (now : AT) (moment : ReadMoment)
  | resetPartDeadline (now : AT)
  | unknownCommand (now : AT)
  | hostSilenceExpiry (now : AT)
  | readIdentity (now : AT)
  | readStatus (now : AT)
  | resetPart (now : AT)
  | resetMap (now : AT)
  | setHostSilence (now : AT)
  | readEvents (now : AT)
  | setEventMask (now : AT)
  | writePlanEntry (now : AT)
  | clearPlan (now : AT)
  | commitPlan (now : AT)
  | readPlan (now : AT)
  | setRoundInterval (now : AT)
  | setWatch (now : AT)
  | readSchedule (now : AT)
  | calibrate (now : AT)
  | calibrateRevert (now : AT)
  | writeCorrection (now : AT)
  | readCalibration (now : AT)
  | readIntake (now : AT)
  | setTracking (now : AT)
  | setTracker (now : AT)
  | restartTracker (now : AT)
  | readTracker (now : AT)
  | readChannel (now : AT)
  | readMap (now : AT)
  | setAveraging (now : AT)
  | setMargin (now : AT)
  | setWeights (now : AT)
  | setBarTime (now : AT)
  | barChannel (now : AT)
  | unbar (now : AT)
  | readNeighbours (now : AT)
  | markFriendly (now : AT)
  | setNeighbourAge (now : AT)
  | setPlanner (now : AT)
  | setRadio (now : AT)
  | setChannel (now : AT)
  | acceptProposal (now : AT)
  | clearHold (now : AT)
  | readPlanner (now : AT)
  | setGate (now : AT)
  | setExclusion (now : AT)
  | setLatency (now : AT)
  | readGate (now : AT)
  | readGrants (now : AT)
  | setSilence (now : AT)
  | readLink (now : AT)
  /-- R11: READY from the front end. -/
  | ready (now : AT) (id : Byte)
  /-- R14: BURST from the front end, fields as its layout gives them. -/
  | burst (now : AT) (id : Byte) (offset : BitVec 24) (duration : BitVec 16) (raw : Byte) (cutStart cutEnd : Bool)
  /-- R13: CLOSE from the front end. -/
  | close (now : AT) (id rawFloor rawRef : Byte)
  | dwellEnd (now : AT)
  | tuneTimeout (now : AT)
  | closeWaitExpiry (now : AT)
  | faultRetry (now : AT)
  | roundDue (now : AT)
  | watchDue (now : AT)
  | emptyPlanTimer (now : AT)
  /-- R10: the last byte of a sense record of this type and length arrives. -/
  | senseRecordDiscard (now : AT) (type len : Byte)
  | senseTruncation (now : AT)
  | senseResyncClear (now : AT)
  | searchTimeout (now : AT) (t : TrackerId)
  | holdoverExpiry (now : AT) (t : TrackerId)
  | barClockTick (now : AT)
  | radarBarExpiry (now : AT) (c : Chan)
  /-- R170, R171: STATUS with its band and channel bytes as received. -/
  | status (now : AT) (r : Radio) (band chan : Byte)
  /-- R138: AIR REQUEST with its fields as received. -/
  | airRequest (now : AT) (r : Radio) (tag : Byte) (len minLen maxWait : BitVec 16) (cls : Byte)
  /-- R151: AIR END. -/
  | airEnd (now : AT) (r : Radio) (tag : Byte) (used : BitVec 16)
  /-- R95: OVERHEARD. -/
  | overheard (now : AT) (r : Radio) (network : BitVec 32) (chan raw : Byte) (airtime : BitVec 32)
  /-- R80: RADAR. -/
  | radar (now : AT) (r : Radio) (chan : Byte)
  /-- R172: SWITCHED. -/
  | switched (now : AT) (r : Radio) (chan : Byte)
  /-- R166: the last byte of a radio record of this type and length arrives. -/
  | linkFramingError (now : AT) (r : Radio) (type len : Byte)
  | linkTruncation (now : AT) (r : Radio)
  | linkResyncClear (now : AT) (r : Radio)
  | silenceTimerExpiry (now : AT) (r : Radio)
  | switchDeadline (now : AT) (r : Radio)
  | grantExpiry (now : AT) (r : Radio)
  | grantEntryAgeOut (now : AT) (b : Band)
deriving DecidableEq, Repr

end Sys2Proof
end

