-- ==== Sys2Proof/Machine/Domain.lean ====
section
/-! DEFINITION. The tables of the opening file: bands, overlap and separation, the regulatory domain, the mains hint; and
the fixed payload lengths of the records that arrive (08, RECORD LAYOUTS). -/

namespace Sys2Proof.Machine

/-- Indices 0 to 12 lie in 2.4 GHz, 13 to 37 in 5 GHz (00_scope.md, Channel index). -/
def bandOf (c : Chan) : Band := if c.val ≤ 12 then .ghz24 else .ghz5

/-- Separation (00_scope.md, Overlap and separation): 5 or more apart in 2.4 GHz, different in 5 GHz, always in different
bands. -/
def separated (c d : Chan) : Bool :=
  match bandOf c, bandOf d with
  | .ghz24, .ghz24 => c.val + 5 ≤ d.val || d.val + 5 ≤ c.val
  | .ghz5, .ghz5 => c ≠ d
  | _, _ => true

/-- The permitted channels of each regulatory domain (00_scope.md, Regulatory domain). -/
def permittedIn (dom : BitVec 2) (c : Chan) : Bool :=
  match dom.toNat with
  | 0 => c.val ≤ 10 || 13 ≤ c.val
  | 1 => c.val ≤ 31
  | 2 => c.val ≤ 20
  | _ => c.val ≤ 10 || (13 ≤ c.val && c.val ≤ 16) || 33 ≤ c.val

/-- A mains candidate. -/
inductive Mains
  | hz50
  | hz60
deriving DecidableEq, Repr

/-- The nominal period of a candidate, in µs (00_scope.md, Mains hint). -/
def nominalPeriod : Mains → Nat
  | .hz50 => 20000
  | .hz60 => 16667

/-- The band in which a tracker's period is held, in µs (00_scope.md, Mains hint). -/
def periodBand : Mains → Nat × Nat
  | .hz50 => (19600, 20400)
  | .hz60 => (16334, 17000)

/-- The candidate a mains hint tries first. -/
def firstCandidate (mh : BitVec 2) : Mains :=
  match mh.toNat with
  | 0 => .hz50
  | 1 => .hz50
  | _ => .hz60

/-- Whether a mains hint allows both candidates. -/
def bothAllowed (mh : BitVec 2) : Bool := mh.toNat = 0 || mh.toNat = 3

/-- The other candidate. -/
def otherCandidate : Mains → Mains
  | .hz50 => .hz60
  | .hz60 => .hz50

/-- The default plan's channels: every permitted 2.4 GHz index in index order (R23). -/
def defaultChans (dom : BitVec 2) : List Chan :=
  allChans.filter fun c => bandOf c = .ghz24 && permittedIn dom c

/-- The record types a radio sends with their fixed payload lengths (08, RECORD LAYOUTS: radio links, from the radio). -/
def radioRecordLength (type : Byte) : Option Nat :=
  match type.toNat with
  | 0x01 => some 2
  | 0x02 => some 8
  | 0x03 => some 3
  | 0x04 => some 10
  | 0x05 => some 1
  | 0x06 => some 1
  | _ => none

/-- The record types the front end sends with their fixed payload lengths (08, RECORD LAYOUTS: sense line). -/
def senseRecordLength (type : Byte) : Option Nat :=
  match type.toNat with
  | 0xC1 => some 1
  | 0xC2 => some 8
  | 0xC3 => some 3
  | _ => none

end Sys2Proof.Machine
end

