-- ==== Sys2Proof/Machine/Types.lean ====
section
/-! DEFINITION. The records of each block of the HRG-430: every register, list, count and mode that the spec gives it. What
the spec calls "absent" is an Option or a constructor. Fields marked MODEL are the model's own (NOTES.md, Assumptions). -/

namespace Sys2Proof.Machine


/-- One value for each radio. -/
structure Pair (α : Type) where
  r0 : α
  r1 : α
deriving DecidableEq, Repr

/-- The value of radio `r`. -/
def Pair.get {α : Type} (p : Pair α) : Radio → α
  | .r0 => p.r0
  | .r1 => p.r1

/-- `p` with radio `r`'s value replaced. -/
def Pair.set {α : Type} (p : Pair α) (r : Radio) (x : α) : Pair α :=
  match r with
  | .r0 => { p with r0 := x }
  | .r1 => { p with r1 := x }

/-- One value for each tracker. -/
structure Triple (α : Type) where
  t0 : α
  t1 : α
  t2 : α
deriving DecidableEq, Repr

/-- The value of tracker `t`. -/
def Triple.get {α : Type} (p : Triple α) : TrackerId → α
  | .t0 => p.t0
  | .t1 => p.t1
  | .t2 => p.t2

/-- `p` with tracker `t`'s value replaced. -/
def Triple.set {α : Type} (p : Triple α) (t : TrackerId) (x : α) : Triple α :=
  match t with
  | .t0 => { p with t0 := x }
  | .t1 => { p with t1 := x }
  | .t2 => { p with t2 := x }

/-! ## SSC (chapter 1) -/

/-- The kind of a dwell. -/
inductive DwellKind
  | sweep
  | watch
  | reference
deriving DecidableEq, Repr

/-- R1: one entry of a sweep plan. -/
structure PlanEntry where
  chan : Chan
  dwellMs : Nat
deriving DecidableEq, Repr

/-- R13: the report a CLOSE carries. -/
structure Report where
  rawFloor : Byte
  rawRef : Byte
deriving DecidableEq, Repr

/-- A dwell (chapter 1). `watchFor` is the tracker a WATCH dwell is for, until that tracker enters IDLE (R11, R15); `last`
is the mark of R21: the calibration queue was empty when this REFERENCE dwell was ordered. -/
structure Dwell where
  kind : DwellKind
  id : Byte
  chan : Chan
  lengthMs : Nat
  watchFor : Option TrackerId
  last : Bool
deriving DecidableEq, Repr

/-- The condition of the current dwell: ordered at an instant, or open from its ready AT, perhaps with a held CLOSE
(R13). -/
inductive Condition
  | ordered (orderAT : AT)
  | opened (ready : AT) (held : Option Report)
deriving DecidableEq, Repr

/-- The current dwell: ordered or open. -/
structure Current where
  dwell : Dwell
  cond : Condition
deriving DecidableEq, Repr

/-- The ended dwell awaiting close: its close wait's end once an order has started it (R12), and the round completion it
hands on when it closes (R7). -/
structure Ended where
  dwell : Dwell
  ready : AT
  closeWait : Option AT
  completion : Option (BitVec 16)
deriving DecidableEq, Repr

/-- The sense line state; in FAULT with the instant of the next retry (R17). -/
inductive LineState
  | running
  | parked
  | fault (retry : AT)
deriving DecidableEq, Repr

/-- Where the sweep stands (R3): within a round; between rounds, with the last round end and the next due instant (R6,
R9); or stopped because the active plan is empty, with the next firing of the 1000 ms timer (R8). -/
inductive RoundPhase
  | running
  | between (roundEnd due : AT)
  | stopped (fires : AT)
deriving DecidableEq, Repr

/-- An order on the sense line (R10). -/
inductive SenseOrder
  | tune (id : Byte) (chan : Chan)
  | reference (id : Byte) (chan : Chan)
  | park
deriving DecidableEq, Repr

/-- The sense scheduler. -/
structure Ssc where
  active : List PlanEntry
  plan : List PlanEntry
  armed : Bool
  intervalMs : Nat
  watchMs : Nat
  roundNumber : BitVec 16
  roundStart : AT
  phase : RoundPhase
  position : Nat
  nextId : Byte
  current : Option Current
  ended : Option Ended
  lastWatch : Triple (Option AT)
  calQueue : List Chan
  line : LineState
  timeouts : Nat
  /-- MODEL: how many of the latest orders in a row were WATCH TUNEs, capped at 3 (R18). -/
  watchRun : Nat
  /-- R23: bytes from the front end are not yet taken as headers. -/
  resync : Bool
  /-- MODEL: the orders sent since the last reset, oldest first. -/
  sent : List SenseOrder
deriving DecidableEq, Repr

/-! ## BCL (chapter 2) -/

/-- R26: the class counts of a tally, each saturating at 255. -/
structure Counts where
  own : Nat
  weak : Nat
  frame : Nat
  oven : Nat
  other : Nat
deriving DecidableEq, Repr

/-- R26: the three busy sums, in µs, kept without a bound: the spec gives none (DESIGN CHOICE, log entry 31). -/
structure Busy where
  frame : Nat
  oven : Nat
  other : Nat
deriving DecidableEq, Repr

/-- R26: the tally of a SWEEP or WATCH dwell. -/
structure Tally where
  id : Byte
  kind : DwellKind
  chan : Chan
  ready : AT
  lengthMs : Nat
  busy : Busy
  counts : Counts
  saturated : Bool
deriving DecidableEq, Repr

/-- R36: the last hand-over. -/
structure HandOver where
  id : Byte
  kind : DwellKind
  chan : Chan
  ready : AT
  lengthMs : Nat
  observed : Nat
  covered : Nat
  busy : Busy
  floorReport : Option Nat
  counts : Counts
deriving DecidableEq, Repr

/-- The status of the latest calibration run. -/
inductive CalStatus
  | idle
  | running
  | done
  | bad
deriving DecidableEq, Repr

/-- The mode of a calibration run. -/
inductive CalMode
  | measure
  | quick
  | revert
deriving DecidableEq, Repr

/-- The calibration run record (chapter 2). -/
structure CalRun where
  status : CalStatus
  mode : Option CalMode
  mask : BitVec 40
  remaining : Nat
  runBad : Bool
deriving DecidableEq, Repr

/-- The burst classifier. -/
structure Bcl where
  tallies : List Tally
  lastHandOver : Option HandOver
  cal : CalRun
deriving DecidableEq, Repr

/-! ## OTK (chapter 3) -/

/-- The state of a tracker that is not IDLE, with the instant that the state carries (R47). -/
inductive OvenPhase
  | search (start : AT)
  | locked
  | holdover (start : AT)
deriving DecidableEq, Repr

/-- R51: the hit windows of one dwell. -/
structure HitSet where
  id : Byte
  starts : List AT
deriving DecidableEq, Repr

/-- R47: what a tracker that is not IDLE holds of its oven. -/
structure Oven where
  phase : OvenPhase
  candidate : Mains
  secondTried : Bool
  period : Nat
  anchor : AT
  lastHit : AT
  width : Nat
  guardUs : Nat
  jitter : Nat
  hits : Nat
  misses : Nat
  lo : Chan
  hi : Chan
  /-- In the order of their creation, at most two. -/
  hitSets : List HitSet
deriving DecidableEq, Repr

/-- How a tracker's guard is kept. -/
inductive GuardMode
  | auto
  | fixed
deriving DecidableEq, Repr

/-- R47: one tracker; `oven` is absent in IDLE, where every field of it is absent, 0, clear or empty. -/
structure Tracker where
  oven : Option Oven
  mode : GuardMode
  fixedGuard : Nat
deriving DecidableEq, Repr

/-- The holdover policy. -/
inductive Policy
  | avoid
  | ignore
deriving DecidableEq, Repr

/-- R48: the six tracking settings. -/
structure TrackSettings where
  tolerance : Nat
  lockThreshold : Nat
  missLimit : Nat
  holdoverMs : Nat
  searchGuard : Nat
  policy : Policy
deriving DecidableEq, Repr

/-- The oven trackers. -/
structure Otk where
  trackers : Triple Tracker
  settings : TrackSettings
deriving DecidableEq, Repr

/-! ## OMAP (chapter 4) -/

/-- R73: one channel record. -/
structure ChannelRecord where
  permitted : Bool
  floor : Nat
  busyFrame : Nat
  busyOven : Nat
  busyOther : Nat
  lastDwell : Option AT
  overRange : Bool
  underRange : Bool
  correction : Int
  bad : Bool
  barredUntil : Option Nat
  heldOut : Bool
  ovenCost : Nat
  pressure : Nat
  load : Nat
deriving DecidableEq, Repr

/-- The occupancy map; `lastRise` is the AT of the bar clock's previous rise, or of the reset (R79). -/
structure Omap where
  channels : Vector ChannelRecord 38
  divisor : Nat
  margin : Nat
  weight : Nat
  pressureThreshold : Nat
  barTime : Nat
  barClock : Nat
  lastRise : AT
  passRound : BitVec 16
deriving DecidableEq, Repr

/-! ## NTAB (chapter 5) -/

/-- R93: an instant kept twice. -/
structure Heard where
  instant : AT
  second : Nat
deriving DecidableEq, Repr

/-- R93: one entry; its band is the band of its channel. -/
structure Neighbour where
  network : BitVec 32
  chan : Chan
  level : Nat
  share : Nat
  accumulator : Nat
  first : Heard
  latest : Heard
  reporter : Radio
  friendly : Bool
deriving DecidableEq, Repr

/-- The neighbour table, head first (R94). -/
structure Ntab where
  entries : List Neighbour
  lastCompletion : AT
  changeNumber : BitVec 16
  ageLimit : Nat
deriving DecidableEq, Repr

/-! ## CPL (chapter 6) -/

/-- The source of a switch in flight. -/
inductive Source
  | planner
  | host
  | radar
  | defaults
deriving DecidableEq, Repr

/-- R108: a switch in flight. -/
structure Switch where
  target : Chan
  count : Nat
  deadline : AT
  source : Source
  fromChan : Chan
deriving DecidableEq, Repr

/-- R108: a standing proposal. -/
structure Proposal where
  chan : Chan
  passRound : BitVec 16
  loadCurrent : Nat
  loadProposed : Nat
deriving DecidableEq, Repr

/-- R108: the planning record of one radio. -/
structure PlanRecord where
  sustain : Nat
  candidate : Option Chan
  lastBest : Option (Chan × Nat)
  proposal : Option Proposal
  lastSwitch : Option Heard
  inFlight : Option Switch
  holding : Bool
  defaultChan : Option Chan
  holdOnReturn : Bool
  announce : Nat
deriving DecidableEq, Repr

/-- The plan mode. -/
inductive PlanMode
  | auto
  | advise
  | fixed
deriving DecidableEq, Repr

/-- The host-silence action. -/
inductive SilenceAction
  | keep
  | auto
  | defaults
deriving DecidableEq, Repr

/-- The channel planner. -/
structure Cpl where
  records : Pair PlanRecord
  mode : PlanMode
  hysteresis : Nat
  sustainLimit : Nat
  minStay : Nat
  action : SilenceAction
deriving DecidableEq, Repr

/-! ## AGT (chapter 7) -/

/-- The modes the host sets; SAFE is `GateState.safe`. -/
inductive HostMode
  | gateOpen
  | gateHeld
  | gateBarred
  | gateOff
deriving DecidableEq, Repr

/-- R133: a gate's mode; in SAFE with the mode before SAFE, which is present in SAFE alone. -/
inductive GateState
  | host (m : HostMode)
  | safe (before : HostMode)
deriving DecidableEq, Repr

/-- The class of a request. -/
inductive ReqClass
  | normal
  | urgent
deriving DecidableEq, Repr

/-- R134: a grant in a slot. -/
structure Grant where
  tag : Byte
  cls : ReqClass
  start : AT
  length : Nat
  short : Bool
  expiry : AT
  listEntry : Bool
deriving DecidableEq, Repr

/-- R133: one gate. -/
structure Gate where
  mode : GateState
  latency : Nat
  slot : Option Grant
deriving DecidableEq, Repr

/-- R136: one entry of a recent-grant list. `live` (MODEL) marks the entry of its radio's outstanding grant. -/
structure GrantEntry where
  radio : Radio
  start : AT
  stop : AT
  live : Bool
deriving DecidableEq, Repr

/-- The airtime gate: both gates, the list of each band, the exclusion setting. -/
structure Agt where
  gates : Pair Gate
  recent24 : List GrantEntry
  recent5 : List GrantEntry
  exclusion : Bool
deriving DecidableEq, Repr

/-! ## Radio link units (chapter 8) -/

/-- The kind of a link error. -/
inductive LinkErrorKind
  | unknownType
  | wrongLength
  | truncated
  | badChannel
  | badBand
deriving DecidableEq, Repr

/-- The reason of a REFUSE. -/
inductive RefuseReason
  | unknown
  | off
  | barred
  | busy
  | tooLong
deriving DecidableEq, Repr

/-- R180: a record to a radio. -/
inductive RadioRecord
  | grant (tag : Byte) (wait length : Nat)
  | short (tag : Byte) (wait length : Nat)
  | wait (tag : Byte) (retryAfter : Nat)
  | refuse (tag : Byte) (reason : RefuseReason) (value : Nat)
  | switch (chan : Chan) (count : Nat)
  | gateNotice (mode : HostMode)
deriving DecidableEq, Repr

/-- R165: one radio link unit. `chan` holds the radio state: absent is UNKNOWN, present is KNOWN with the channel, whose
band is the radio's band. -/
structure Link where
  chan : Option Chan
  timer : Option AT
  silent : Bool
  limitMs : Nat
  lastValid : Option AT
  taken : Nat
  errors : Nat
  lastError : Option (LinkErrorKind × AT)
  resync : Bool
  /-- MODEL: the records sent to the radio since the last reset, oldest first. -/
  sent : List RadioRecord
deriving DecidableEq, Repr

/-! ## Host port unit (chapter 9) -/

/-- R187: the command in hand, with the AT of the deselection that ended its frame. -/
structure InHand where
  code : Byte
  payload : List Byte
  deselected : AT
deriving DecidableEq, Repr

/-- The response codes (chapter 9, RESPONSE CODES) that a ready response carries. -/
inductive Code
  | ok
  | busy
  | badArgument
  | notPermitted
  | notEligible
  | wrongState
  | unknownCommand
deriving DecidableEq, Repr

/-- A response frame: code, command code answered, payload. -/
structure Response where
  code : Code
  command : Byte
  payload : List Byte
deriving DecidableEq, Repr

/-- R189: what a read transaction under way shifts out after its first byte: the response frame as it stood at that byte,
and whether that frame is the OK of a RESET PART pending (R197). -/
structure Reading where
  frame : List Byte
  returnsOk : Bool
deriving DecidableEq, Repr

/-- R201: the start cause. -/
inductive StartCause
  | powerOn
  | resetLine
  | hostReset
deriving DecidableEq, Repr

/-- The host port unit. `response` absent reads as NOT READY (R189); `resetPending` is the deadline of a RESET PART
pending (R197); `reading` is the read transaction under way, from its first byte to its deselection (R189). -/
structure HostPort where
  inHand : Option InHand
  response : Option Response
  resetPending : Option AT
  reading : Option Reading
  limitS : Nat
  timer : Option AT
  taken : Nat
  frameErrors : Nat
  overruns : Nat
  cause : StartCause
  dom : BitVec 2
  mains : BitVec 2
  /-- MODEL: the bytes shifted out in the latest transaction. -/
  shiftedOut : List Byte
deriving DecidableEq, Repr

/-! ## Event unit (chapter 10) -/

/-- R206: the event kinds, in kind-code order. -/
inductive EventKind
  | start
  | ovenLocked
  | ovenLost
  | ovenBack
  | ovenGone
  | searchFailed
  | trackersFull
  | grantExpired
  | strayEnd
  | radioSilent
  | radioBack
  | linkError
  | channelMismatch
  | proposal
  | switchDone
  | switchFailed
  | noChannel
  | radarBar
  | range
  | senseFault
  | roundLate
  | planApplied
  | calibration
  | neighbourEvicted
  | hostSilent
deriving DecidableEq, Repr

/-- R204: one entry of the pending event set. -/
structure EventEntry where
  kind : EventKind
  count : Nat
  detail : Nat
  latest : AT
deriving DecidableEq, Repr

/-- The event unit: the set in kind-code order, the mask (bit k - 1 enables kind code k) and the ATTN line (asserted). -/
structure Events where
  set : List EventEntry
  mask : BitVec 25
  attn : Bool
deriving DecidableEq, Repr

end Sys2Proof.Machine
end

