-- ==== Sys2Proof/Machine/ResetValues.lean ====
section
/-! DEFINITION. What each block holds after a full reset and after RESET PART (R23, R46, R72, R92, R107, R131, R163, R182,
R203, R210). -/

namespace Sys2Proof.Machine

/-- R23: SSC before the first boundary of a full reset in domain `dom`; RESET PART keeps the dwell id counter. -/
def Ssc.start (dom : BitVec 2) (nextId : Byte) : Ssc :=
  { active := (defaultChans dom).map fun c => ⟨c, 40⟩
    plan := [], armed := false, intervalMs := 0, watchMs := 500, roundNumber := 0, roundStart := 0
    phase := .running, position := 0, nextId, current := none, ended := none
    lastWatch := ⟨none, none, none⟩, calQueue := [], line := .running, timeouts := 0, watchRun := 0
    resync := true, sent := [] }

/-- R46. -/
def Bcl.start : Bcl :=
  { tallies := [], lastHandOver := none
    cal := { status := .idle, mode := none, mask := 0, remaining := 0, runBad := false } }

/-- R72: one tracker. -/
def Tracker.start : Tracker := { oven := none, mode := .auto, fixedGuard := 1000 }

/-- R72, R48. -/
def Otk.start : Otk :=
  { trackers := ⟨Tracker.start, Tracker.start, Tracker.start⟩
    settings := { tolerance := 600, lockThreshold := 4, missLimit := 6, holdoverMs := 2000
                  searchGuard := 1500, policy := .avoid } }

/-- R92: one channel record; RESET PART keeps the permitted field and the correction. -/
def ChannelRecord.start (permitted : Bool) (correction : Int) : ChannelRecord :=
  { permitted, floor := 40, busyFrame := 0, busyOven := 0, busyOther := 0, lastDwell := none
    overRange := false, underRange := false, correction, bad := false, barredUntil := none, heldOut := false
    ovenCost := 0, pressure := 0, load := 0 }

/-- A table of 38 records from its index. -/
def chanTable {α : Type} (f : Chan → α) : Vector α 38 := ⟨⟨allChans.map f⟩, by simp [allChans]⟩

/-- R92. -/
def Omap.start (dom : BitVec 2) (correction : Chan → Int) : Omap :=
  { channels := chanTable fun c => ChannelRecord.start (permittedIn dom c) (correction c)
    divisor := 4, margin := 12, weight := 20, pressureThreshold := 76, barTime := 1800, barClock := 0
    lastRise := 0, passRound := 0 }

/-- R107. -/
def Ntab.start : Ntab := { entries := [], lastCompletion := 0, changeNumber := 0, ageLimit := 300 }

/-- R131: one planning record. -/
def PlanRecord.start : PlanRecord :=
  { sustain := 0, candidate := none, lastBest := none, proposal := none, lastSwitch := none
    inFlight := none, holding := false, defaultChan := none, holdOnReturn := false, announce := 5 }

/-- R131. -/
def Cpl.start : Cpl :=
  { records := ⟨PlanRecord.start, PlanRecord.start⟩, mode := .advise, hysteresis := 150
    sustainLimit := 3, minStay := 60, action := .keep }

/-- R163. -/
def Agt.start : Agt :=
  { gates := ⟨⟨.host .gateOpen, 20, none⟩, ⟨.host .gateOpen, 20, none⟩⟩
    recent24 := [], recent5 := [], exclusion := true }

/-- R182. -/
def Link.start : Link :=
  { chan := none, timer := none, silent := false, limitMs := 500, lastValid := none, taken := 0
    errors := 0, lastError := none, resync := true, sent := [] }

/-- R203. -/
def HostPort.start (cause : StartCause) (dom mains : BitVec 2) (shiftedOut : List Byte) : HostPort :=
  { inHand := none, response := none, resetPending := none, reading := none, limitS := 0, timer := none
    taken := 0, frameErrors := 0, overruns := 0, cause, dom, mains, shiftedOut }

/-- R201, R206: the code of a start cause. -/
def StartCause.code : StartCause → Nat
  | .powerOn => 1
  | .resetLine => 2
  | .hostReset => 3

/-- R210: START only, every kind enabled, ATTN asserted. -/
def Events.start (cause : StartCause) : Events :=
  { set := [{ kind := .start, count := 1, detail := cause.code, latest := 0 }]
    mask := BitVec.allOnes 25, attn := true }

/-- R202: the first TUNE, for the plan's first entry (index 0, 40 ms, in every domain), at the start instant. -/
def Ssc.afterFirstTune (x : Ssc) : Ssc :=
  { x with
    nextId := x.nextId + 1
    current := some ⟨⟨.sweep, x.nextId, 0, 40, none, false⟩, .ordered 0⟩
    sent := x.sent ++ [.tune x.nextId 0] }

end Sys2Proof.Machine
end

