-- ==== Sys2Proof/Machine/State.lean ====
section
/-! DEFINITION. The state of the HRG-430: its blocks (Types.lean), AT, the queue of waiting commands; the reasons a step can
stop; the state after reset. -/

namespace Sys2Proof.Machine

/-- R199: whether the part runs or a full reset is in force; with the cause of the reset period. -/
inductive Phase
  | running
  | inReset (cause : StartCause)
deriving DecidableEq, Repr

/-- The machine. `now` is AT, the instant of the latest command. -/
structure State where
  phase : Phase
  now : AT
  ssc : Ssc
  bcl : Bcl
  otk : Otk
  omap : Omap
  ntab : Ntab
  cpl : Cpl
  agt : Agt
  links : Pair Link
  host : HostPort
  events : Events
  pending : List Instr
deriving DecidableEq, Repr

/-- No command stops the part: what the spec refuses is answered with a response code, a link error or a discard, and the
sense line's FAULT is a state the part works in. So no fault is ever raised. -/
inductive Fault
deriving DecidableEq, Repr

/-- Why a command has no meaning in the model. -/
inductive Refusal
  /-- Raised by an arm of exec whose row is not modelled yet; no arm of this model raises it. Safe: the machine stops. -/
  | notModelled (mnemonic : String)
deriving DecidableEq, Repr

/-- R202 before SSC's first order: every block at its reset values, AT 0. -/
def State.start (cause : StartCause) (dom mains : BitVec 2) (nextId : Byte) (correction : Chan → Int)
    (shiftedOut : List Byte) (pending : List Instr) : State :=
  { phase := .running, now := 0
    ssc := Ssc.start dom nextId
    bcl := Bcl.start
    otk := Otk.start
    omap := Omap.start dom correction
    ntab := Ntab.start
    cpl := Cpl.start
    agt := Agt.start
    links := ⟨Link.start, Link.start⟩
    host := HostPort.start cause dom mains shiftedOut
    events := Events.start cause
    pending }

/-- The machine right after reset: a power-on full reset has just ended in domain D0 with mains hint 00 (DESIGN CHOICE, log
entry 4), and the first TUNE has been sent (R202). Nothing is queued. -/
def State.reset : State :=
  let s := State.start .powerOn 0 0 0 (fun _ => 0) [] []
  { s with ssc := s.ssc.afterFirstTune }

/-! ## Updates -/

def State.withNow (s : State) (t : AT) : State := { s with now := t }
def State.withSsc (s : State) (x : Ssc) : State := { s with ssc := x }
def State.withBcl (s : State) (x : Bcl) : State := { s with bcl := x }
def State.withOtk (s : State) (x : Otk) : State := { s with otk := x }
def State.withOmap (s : State) (x : Omap) : State := { s with omap := x }
def State.withNtab (s : State) (x : Ntab) : State := { s with ntab := x }
def State.withCpl (s : State) (x : Cpl) : State := { s with cpl := x }
def State.withAgt (s : State) (x : Agt) : State := { s with agt := x }
def State.withLinks (s : State) (x : Pair Link) : State := { s with links := x }
def State.withHost (s : State) (x : HostPort) : State := { s with host := x }
def State.withEvents (s : State) (x : Events) : State := { s with events := x }
def State.withPending (s : State) (q : List Instr) : State := { s with pending := q }

end Sys2Proof.Machine
end

