-- ==== Sys2Proof/Machine/Flags.lean ====
section
/-! DEFINITION. The conditions and flags the rules compute from the state: bars, tracker coverage and protection, watches
due, exclusion, eligibility's separation, the range flags, the attention line. -/

namespace Sys2Proof.Machine

/-- R206: the kind code of an event kind. -/
def EventKind.code : EventKind → Nat
  | .start => 1
  | .ovenLocked => 2
  | .ovenLost => 3
  | .ovenBack => 4
  | .ovenGone => 5
  | .searchFailed => 6
  | .trackersFull => 7
  | .grantExpired => 8
  | .strayEnd => 9
  | .radioSilent => 10
  | .radioBack => 11
  | .linkError => 12
  | .channelMismatch => 13
  | .proposal => 14
  | .switchDone => 15
  | .switchFailed => 16
  | .noChannel => 17
  | .radarBar => 18
  | .range => 19
  | .senseFault => 20
  | .roundLate => 21
  | .planApplied => 22
  | .calibration => 23
  | .neighbourEvicted => 24
  | .hostSilent => 25

/-- R208: whether a mask enables a kind (bit k - 1 for kind code k, R184). -/
def enabledIn (mask : BitVec 25) (k : EventKind) : Bool := mask.getLsbD (k.code - 1)

/-- R209: the level of ATTN that a set and a mask call for. -/
def attnLevel (set : List EventEntry) (mask : BitVec 25) : Bool := set.any fun e => enabledIn mask e.kind

/-- R83: a channel is barred while its barred-until is present or its held-out flag is set. -/
def barred (c : ChannelRecord) : Bool := c.barredUntil.isSome || c.heldOut

/-- R28, R78: the busy threshold, min(240, floor + margin). -/
def threshold (margin : Nat) (c : ChannelRecord) : Nat := min 240 (c.floor + margin)

/-- R66: a tracker covers a channel that lies within its span. -/
def covers (o : Oven) (c : Chan) : Bool := o.lo.val ≤ c.val && c.val ≤ o.hi.val

/-- R66: whether a tracker that is not IDLE is protecting for a class. -/
def protecting (policy : Policy) (cls : ReqClass) (o : Oven) : Bool :=
  match o.phase with
  | .locked => true
  | .holdover _ => policy = .avoid && cls = .normal
  | .search _ => false

/-- R69: the effective guard of a tracker that is not IDLE. -/
def effectiveGuard (set : TrackSettings) (o : Oven) : Nat :=
  match o.phase with
  | .search _ => set.searchGuard
  | .locked => o.guardUs
  | .holdover _ => o.guardUs

/-- R65: the guard of a tracker's windows for a class. -/
def classGuard (set : TrackSettings) (cls : ReqClass) (o : Oven) : Nat :=
  match cls with
  | .normal => effectiveGuard set o
  | .urgent => 0

/-- R20: the shortest time from the last watch start to the next watch, in µs; absent in IDLE, where none is ever due. -/
def watchGap (watchMs : Nat) (tr : Tracker) : Option Nat :=
  tr.oven.map fun o =>
    match o.phase with
    | .search _ => Config.searchWatchUs
    | .locked => watchMs * 1000
    | .holdover _ => watchMs * 1000

/-- R20: whether a watch is due for tracker `t`. -/
def watchDue (s : State) (t : TrackerId) : Bool :=
  match watchGap s.ssc.watchMs (s.otk.trackers.get t) with
  | none => false
  | some gap =>
    match s.ssc.lastWatch.get t with
    | none => true
    | some start => decide ((gap : Int) ≤ tdiff s.now start)

/-- The trackers in tracker-number order. -/
def allTrackers : List TrackerId := [.t0, .t1, .t2]

/-- Whether a round is in progress with entries left (R18). -/
def entriesLeft (x : Ssc) : Bool :=
  match x.phase with
  | .running => x.position < x.active.length
  | .between _ _ => false
  | .stopped _ => false

/-- Whether the next round is due and can start (R5, R18). -/
def roundIsDue (x : Ssc) (now : AT) : Bool :=
  match x.phase with
  | .between _ due => reached due now && x.active ≠ []
  | .running => false
  | .stopped _ => false

/-- R19: whether a parked front end has work. -/
def workDue (s : State) : Bool :=
  allTrackers.any (watchDue s) || s.ssc.calQueue ≠ [] || roundIsDue s.ssc s.now || entriesLeft s.ssc

/-- The sense line is in FAULT. -/
def inFault (x : Ssc) : Bool :=
  match x.line with
  | .fault _ => true
  | .running => false
  | .parked => false

/-- R133: whether a gate is neither OFF nor SAFE. -/
def gateServes (g : Gate) : Bool :=
  match g.mode with
  | .host m => m ≠ .gateOff
  | .safe _ => false

/-- The other radio. -/
def otherRadio : Radio → Radio
  | .r0 => .r1
  | .r1 => .r0

/-- R142: exclusion applies to a request of radio `r`: the setting is on, both radios are KNOWN and in one band. -/
def exclusionApplies (s : State) (r : Radio) : Bool :=
  match (s.links.get r).chan, (s.links.get (otherRadio r)).chan with
  | some c, some d => s.agt.exclusion && bandOf c = bandOf d
  | _, _ => false

/-- R25: a raw level of 240 or more is saturated. -/
def saturatedRaw (raw : Byte) : Bool := 240 ≤ raw.toNat

/-- R25, R34, R95: a raw level plus a correction, clamped to 0–240. -/
def corrected (raw : Byte) (correction : Int) : Nat := (clampInt 0 240 ((raw.toNat : Int) + correction)).toNat

end Sys2Proof.Machine
end

