-- ==== Sys2Proof/Machine/Operands.lean ====
section
/-! DEFINITION. Operands: a host command's arguments in its payload, the codes of enumerated values, and the bytes of a
response's values and of the records sent (chapter 8, RECORD LAYOUTS and R184). Most significant byte first. -/

namespace Sys2Proof.Machine

/-! ## Arguments of a payload -/

/-- The byte at position `i`. -/
def arg (p : List Byte) (i : Nat) : Byte := p.getD i 0

/-- A one-byte number. -/
def arg1 (p : List Byte) (i : Nat) : Nat := (arg p i).toNat

/-- A two-byte number at position `i`. -/
def arg2 (p : List Byte) (i : Nat) : Nat := (arg p i ++ arg p (i + 1)).toNat

/-- A four-byte word at position `i`. -/
def arg4 (p : List Byte) (i : Nat) : BitVec 32 := arg p i ++ arg p (i + 1) ++ arg p (i + 2) ++ arg p (i + 3)

/-- A five-byte channel mask at position `i`. -/
def arg5 (p : List Byte) (i : Nat) : BitVec 40 := arg4 p i ++ arg p (i + 4)

/-! ## Codes of arguments -/

def radioOf (b : Byte) : Option Radio :=
  match b.toNat with
  | 0 => some .r0
  | 1 => some .r1
  | _ => none

def trackerOf (b : Byte) : Option TrackerId :=
  match b.toNat with
  | 0 => some .t0
  | 1 => some .t1
  | 2 => some .t2
  | _ => none

/-- A channel index; an index outside 0–37 is out of range. -/
def chanOf (b : Byte) : Option Chan := if h : b.toNat < 38 then some ⟨b.toNat, h⟩ else none

def flagOf (b : Byte) : Option Bool :=
  match b.toNat with
  | 0 => some false
  | 1 => some true
  | _ => none

def bandOfCode (b : Byte) : Option Band :=
  match b.toNat with
  | 0 => some .ghz24
  | 1 => some .ghz5
  | _ => none

def calModeOf (b : Byte) : Option CalMode :=
  match b.toNat with
  | 0 => some .measure
  | 1 => some .quick
  | 2 => some .revert
  | _ => none

def guardModeOf (b : Byte) : Option GuardMode :=
  match b.toNat with
  | 0 => some .auto
  | 1 => some .fixed
  | _ => none

def policyOf (b : Byte) : Option Policy :=
  match b.toNat with
  | 0 => some .avoid
  | 1 => some .ignore
  | _ => none

def planModeOf (b : Byte) : Option PlanMode :=
  match b.toNat with
  | 0 => some .auto
  | 1 => some .advise
  | 2 => some .fixed
  | _ => none

def actionOf (b : Byte) : Option SilenceAction :=
  match b.toNat with
  | 0 => some .keep
  | 1 => some .auto
  | 2 => some .defaults
  | _ => none

/-- R156: the four modes the host may set; SAFE (04h) is none of them. -/
def hostModeOf (b : Byte) : Option HostMode :=
  match b.toNat with
  | 0 => some .gateOpen
  | 1 => some .gateHeld
  | 2 => some .gateBarred
  | 3 => some .gateOff
  | _ => none

/-- R138: a class code that is not URGENT is taken as NORMAL. -/
def classOf (b : Byte) : ReqClass := if b = 1#8 then .urgent else .normal

/-- R110: a default channel is an index or NONE (FFh); anything else is refused. -/
def defaultChanOf (b : Byte) : Option (Option Chan) :=
  if b = 0xFF#8 then some none else (chanOf b).map some

/-! ## Codes of values sent -/

def radioCode : Radio → Nat
  | .r0 => 0
  | .r1 => 1

def trackerCode : TrackerId → Nat
  | .t0 => 0
  | .t1 => 1
  | .t2 => 2

def bandCode : Band → Nat
  | .ghz24 => 0
  | .ghz5 => 1

def Mains.code : Mains → Nat
  | .hz50 => 0
  | .hz60 => 1

def DwellKind.code : DwellKind → Nat
  | .sweep => 0
  | .watch => 1
  | .reference => 2

def LineState.code : LineState → Nat
  | .running => 0
  | .parked => 1
  | .fault _ => 2

def CalStatus.code : CalStatus → Nat
  | .idle => 0
  | .running => 1
  | .done => 2
  | .bad => 3

def CalMode.code : CalMode → Nat
  | .measure => 0
  | .quick => 1
  | .revert => 2

/-- R206: the detail of CALIBRATION, 1 DONE and 2 BAD. -/
def CalStatus.detail : CalStatus → Nat
  | .bad => 2
  | .idle => 1
  | .running => 1
  | .done => 1

def GuardMode.code : GuardMode → Nat
  | .auto => 0
  | .fixed => 1

def Policy.code : Policy → Nat
  | .avoid => 0
  | .ignore => 1

/-- The state code of a tracker: IDLE, SEARCH, LOCKED, HOLDOVER. -/
def trackerStateCode (tr : Tracker) : Nat :=
  match tr.oven with
  | none => 0
  | some o =>
    match o.phase with
    | .search _ => 1
    | .locked => 2
    | .holdover _ => 3

def PlanMode.code : PlanMode → Nat
  | .auto => 0
  | .advise => 1
  | .fixed => 2

def SilenceAction.code : SilenceAction → Nat
  | .keep => 0
  | .auto => 1
  | .defaults => 2

def Source.code : Source → Nat
  | .planner => 0
  | .host => 1
  | .radar => 2
  | .defaults => 3

def HostMode.code : HostMode → Nat
  | .gateOpen => 0
  | .gateHeld => 1
  | .gateBarred => 2
  | .gateOff => 3

def GateState.code : GateState → Nat
  | .host m => m.code
  | .safe _ => 4

def ReqClass.code : ReqClass → Nat
  | .normal => 0
  | .urgent => 1

def LinkErrorKind.code : LinkErrorKind → Nat
  | .unknownType => 1
  | .wrongLength => 2
  | .truncated => 3
  | .badChannel => 4
  | .badBand => 5

def RefuseReason.code : RefuseReason → Nat
  | .unknown => 1
  | .off => 2
  | .barred => 3
  | .busy => 4
  | .tooLong => 5

/-- Chapter 8, RECORD LAYOUTS: response codes. -/
def Code.code : Code → Nat
  | .ok => 0
  | .busy => 1
  | .badArgument => 2
  | .notPermitted => 3
  | .notEligible => 4
  | .wrongState => 5
  | .unknownCommand => 6

/-! ## Bytes of values -/

def b1 (n : Nat) : List Byte := [BitVec.ofNat 8 n]

/-- A two-byte value. -/
def b2 (n : Nat) : List Byte := [BitVec.ofNat 8 (n / 256), BitVec.ofNat 8 n]

/-- A four-byte value. -/
def b4 (n : Nat) : List Byte :=
  [BitVec.ofNat 8 (n / 16777216), BitVec.ofNat 8 (n / 65536), BitVec.ofNat 8 (n / 256), BitVec.ofNat 8 n]

/-- A five-byte channel mask. -/
def b5 (m : BitVec 40) : List Byte := b1 (m.toNat / 4294967296) ++ b4 m.toNat

/-- An AT value. -/
def bAT (t : AT) : List Byte := b4 t.toNat

/-- A flag. -/
def bFlag (f : Bool) : List Byte := b1 f.toNat

/-- A two's complement value in one byte. -/
def bSigned (i : Int) : List Byte := [BitVec.ofInt 8 i]

/-- R184: a possibly absent value of `width` bytes, after its presence byte. -/
def bOpt {α : Type} (width : Nat) (f : α → List Byte) : Option α → List Byte
  | none => 0 :: List.replicate width 0
  | some x => 1 :: f x

/-- R184: a run of entries after one byte giving their number. -/
def bRun {α : Type} (f : α → List Byte) (xs : List α) : List Byte := b1 xs.length ++ xs.flatMap f

/-- A channel index. -/
def bChan (c : Chan) : List Byte := b1 c.val

/-- A radio's state, band and channel, each of the last two absent while it is UNKNOWN (R130, R161, R181). -/
def placeBytes (c : Option Chan) : List Byte :=
  bFlag c.isSome ++ bOpt 1 (fun d => b1 (bandCode (bandOf d))) c ++ bOpt 1 bChan c

/-! ## Bytes of records and frames -/

/-- The bytes of an order on the sense line. -/
def SenseOrder.bytes : SenseOrder → List Byte
  | .tune id c => [0x41, 2, id] ++ bChan c
  | .reference id c => [0x42, 2, id] ++ bChan c
  | .park => [0x43, 0]

/-- The bytes of a record to a radio. -/
def RadioRecord.bytes : RadioRecord → List Byte
  | .grant tag w n => [0x81, 5, tag] ++ b2 w ++ b2 n
  | .short tag w n => [0x82, 5, tag] ++ b2 w ++ b2 n
  | .wait tag t => [0x83, 3, tag] ++ b2 t
  | .refuse tag reason v => [0x84, 4, tag] ++ b1 reason.code ++ b2 v
  | .switch c n => [0x85, 2] ++ bChan c ++ b1 n
  | .gateNotice m => [0x86, 1] ++ b1 m.code

/-- The bytes of a ready response frame. -/
def Response.bytes (r : Response) : List Byte := b1 r.code.code ++ [r.command] ++ b1 r.payload.length ++ r.payload

/-- R189: the frame that a read shifts out: the ready response, or NOT READY with the code of the command in hand (00h when
there is none). -/
def responseFrame (h : HostPort) : List Byte :=
  match h.response with
  | some r => r.bytes
  | none =>
    match h.inHand with
    | some c => [0x80, c.code, 0]
    | none => [0x80, 0, 0]

end Sys2Proof.Machine
end

