-- ==== Sys2Proof/Machine/Ops.lean ====
section
/-! DEFINITION. The shared operations: reading and writing one record of a block, raising an event, sending a record, and
the two frames that every command's meaning stands in: `event` (any command) and `handle` (a host command). -/

namespace Sys2Proof.Machine

/-- The outcome of a command. -/
abbrev Result := Host.Outcome State Fault Refusal

/-! ## One record of a block -/

def State.chan (s : State) (c : Chan) : ChannelRecord := s.omap.channels[c]
def State.setChan (s : State) (c : Chan) (x : ChannelRecord) : State :=
  s.withOmap { s.omap with channels := s.omap.channels.set c x }

def State.tracker (s : State) (t : TrackerId) : Tracker := s.otk.trackers.get t
def State.setTracker (s : State) (t : TrackerId) (x : Tracker) : State :=
  s.withOtk { s.otk with trackers := s.otk.trackers.set t x }

def State.link (s : State) (r : Radio) : Link := s.links.get r
def State.setLink (s : State) (r : Radio) (x : Link) : State := s.withLinks (s.links.set r x)

def State.gate (s : State) (r : Radio) : Gate := s.agt.gates.get r
def State.setGate (s : State) (r : Radio) (x : Gate) : State :=
  s.withAgt { s.agt with gates := s.agt.gates.set r x }

def State.record (s : State) (r : Radio) : PlanRecord := s.cpl.records.get r
def State.setRecord (s : State) (r : Radio) (x : PlanRecord) : State :=
  s.withCpl { s.cpl with records := s.cpl.records.set r x }

/-- The recent-grant list of a band. -/
def State.recent (s : State) : Band → List GrantEntry
  | .ghz24 => s.agt.recent24
  | .ghz5 => s.agt.recent5
def State.setRecent (s : State) (b : Band) (x : List GrantEntry) : State :=
  match b with
  | .ghz24 => s.withAgt { s.agt with recent24 := x }
  | .ghz5 => s.withAgt { s.agt with recent5 := x }

/-- The present instant as AT and as the bar clock's second (R93, R108). -/
def State.heard (s : State) : Heard := ⟨s.now, s.omap.barClock⟩

/-! ## Events -/

/-- R205: the set after one occurrence of a kind: a new entry in kind-code order, or the kind's entry brought up to date. -/
def recordEvent (k : EventKind) (detail : Nat) (now : AT) : List EventEntry → List EventEntry
  | [] => [⟨k, 1, detail, now⟩]
  | e :: rest =>
    if e.kind = k then ⟨k, satInc 255 e.count, detail, now⟩ :: rest
    else if k.code < e.kind.code then ⟨k, 1, detail, now⟩ :: e :: rest
    else e :: recordEvent k detail now rest

/-- R205, R209: an event is raised; an event of an enabled kind asserts ATTN, one of a masked kind leaves it. -/
def raise (k : EventKind) (detail : Nat) (s : State) : State :=
  s.withEvents { s.events with
    set := recordEvent k detail s.now s.events.set
    attn := s.events.attn || enabledIn s.events.mask k }

/-! ## Records sent -/

/-- R180: a record is sent to radio `r`. -/
def sendRadio (r : Radio) (x : RadioRecord) (s : State) : State :=
  s.setLink r { s.link r with sent := (s.link r).sent ++ [x] }

/-! ## The frame of every command -/

/-- A command handled at `t`: the part is running, AT is `t`, and `body` gives the effect. While a full reset is in force the
part takes nothing and holds nothing (R199; log entries 1, 6). -/
def event (t : AT) (s : State) (body : State → State) : Result :=
  match s.phase with
  | .inReset _ => .next s
  | .running => .next (body (s.withNow t))

/-! ## The frame of a host command -/

/-- R188: the handling completes: the response becomes ready and the command in hand absent. -/
def answer (c : InHand) (reply : Code × List Byte) (s : State) : State :=
  s.withHost { s.host with inHand := none, response := some ⟨reply.1, c.code, reply.2⟩ }

/-- R188: the handling of the command in hand, when its code is `code`: BAD_ARGUMENT without effect when the payload is
shorter than the command's `nargs` argument bytes, else the block's own rule. When no such command is in hand the row does
not arise, and nothing happens (log entry 7). -/
def handle (code nargs : Nat) (t : AT) (s : State)
    (body : List Byte → State → (Code × List Byte) × State) : Result :=
  event t s fun s =>
    match s.host.inHand with
    | none => s
    | some c =>
      if c.code.toNat = code then
        if c.payload.length < nargs then answer c (.badArgument, []) s
        else answer c (body c.payload s).1 (body c.payload s).2
      else s

/-- A command refused: the response code alone, nothing changed; the payload holds the values a rule lists (R184), here none. -/
def refuse (code : Code) (s : State) : (Code × List Byte) × State := ((code, []), s)

/-- A command carried out. -/
def okay (payload : List Byte) (s : State) : (Code × List Byte) × State := ((.ok, payload), s)

end Sys2Proof.Machine
end

