-- ==== Sys2Proof/Machine/Occupancy.lean ====
section
/-! DEFINITION. The occupancy map, OMAP (chapter 4): the dwell-close update, bars and the bar clock, the planning pass in the
map, and the map's commands. -/

namespace Sys2Proof.Machine

/-! ## The dwell-close update -/

/-- R74: one busy fraction after a report. -/
def busyStep (divisor observed sum busy : Nat) : Nat := moveToward busy (min 1000 (sum * 1000 / observed)) divisor

/-- R75: the floor after a floor report. -/
def floorStep (f floor : Nat) : Nat := if f < floor then f else moveToward floor f 16

/-- R74 to R76: a channel record after a dwell report. -/
def reported (divisor : Nat) (now : AT) (observed : Nat) (sums : Busy) (floorReport : Option Nat)
    (c : ChannelRecord) : ChannelRecord :=
  let c1 :=
    if 1000 ≤ observed then
      { c with
        busyFrame := busyStep divisor observed sums.frame c.busyFrame
        busyOven := busyStep divisor observed sums.oven c.busyOven
        busyOther := busyStep divisor observed sums.other c.busyOther }
    else c
  { c1 with
    floor := match floorReport with
      | some f => floorStep f c.floor
      | none => c.floor
    lastDwell := some now }

/-- R74 to R76: the map takes a dwell report. -/
def dwellReport (chan : Chan) (observed : Nat) (sums : Busy) (floorReport : Option Nat) (s : State) : State :=
  s.setChan chan (reported s.omap.divisor s.now observed sums floorReport (s.chan chan))

/-! ## Bars -/

/-- R80: the barred-until that a RADAR sets: never earlier than a present one. -/
def extendedBar (old : Option Nat) (value : Nat) : Nat :=
  match old with
  | some u => max u value
  | none => value

/-- R80: a RADAR in the map. -/
def barChannel (c : Chan) (s : State) : State :=
  raise .radarBar c.val
    (s.setChan c { s.chan c with
      barredUntil := some (extendedBar (s.chan c).barredUntil (s.omap.barClock + s.omap.barTime)) })

/-! ## The planning pass in the map -/

/-- R85: what one tracker adds to the oven cost of a channel. -/
def ovenTerm (policy : Policy) (c : Chan) (tr : Tracker) : Nat :=
  match tr.oven with
  | none => 0
  | some o =>
    if protecting policy .normal o && covers o c then ceilDiv ((o.width + 2 * o.guardUs) * 1000) o.period else 0

/-- R85: the oven cost of a channel. -/
def ovenCost (s : State) (c : Chan) : Nat :=
  min 1000 (allTrackers.map fun t => ovenTerm s.otk.settings.policy c (s.tracker t)).sum

/-- R86: what one entry adds to the pressure of a channel. -/
def pressureTerm (weight pressureThreshold : Nat) (c : Chan) (e : Neighbour) : Nat :=
  if e.friendly || e.level < pressureThreshold then 0
  else if e.chan = c then weight + e.share / 2
  else if bandOf c = .ghz24 && bandOf e.chan = .ghz24 && !separated c e.chan then weight / 2 + e.share / 4
  else 0

/-- R86: the pressure of a channel. -/
def pressureOf (s : State) (c : Chan) : Nat :=
  min 1000 (s.ntab.entries.map (pressureTerm s.omap.weight s.omap.pressureThreshold c)).sum

/-- R87: the load of a channel. -/
def loadOf (x : ChannelRecord) (cost pressure : Nat) : Nat :=
  min 1000 (x.busyFrame + x.busyOther + max x.busyOven cost + pressure)

/-- R84: one record after the pass. -/
def passed38 (s : State) (c : Chan) : ChannelRecord :=
  let x := s.chan c
  let cost := ovenCost s c
  let pressure := pressureOf s c
  { x with ovenCost := cost, pressure := pressure, load := loadOf x cost pressure }

/-- R84: the map's pass at a round completion. -/
def mapPass (round : BitVec 16) (s : State) : State :=
  s.withOmap { s.omap with channels := chanTable (passed38 s), passRound := round }

/-! ## RESET MAP (R91) -/

/-- R91: one channel record after RESET MAP. -/
def mapReset (x : ChannelRecord) : ChannelRecord :=
  { x with
    busyFrame := 0, busyOven := 0, busyOther := 0, floor := 40, overRange := false, underRange := false
    lastDwell := none, ovenCost := 0, pressure := 0, load := 0 }

/-- R91: the map's part of RESET MAP. -/
def resetMapRecords (s : State) : State :=
  s.withOmap { s.omap with channels := chanTable fun c => mapReset (s.chan c) }

/-! ## Host commands -/

/-- R89: the payload of READ CHANNEL. The margin follows the threshold as a byte of its own (DESIGN CHOICE, log
entry 18). A barred-until beyond four bytes is sent by its low four (log entry 23), and a bar that is due has 0 s remaining
(log entry 29). -/
def channelBytes (m : Omap) (x : ChannelRecord) : List Byte :=
  bFlag x.permitted ++ b1 x.floor ++ b1 (threshold m.margin x) ++ b1 m.margin
  ++ b2 x.busyFrame ++ b2 x.busyOven ++ b2 x.busyOther ++ bOpt 4 bAT x.lastDwell
  ++ bFlag x.overRange ++ bFlag x.underRange ++ bSigned x.correction ++ bFlag x.bad
  ++ bOpt 6 (fun u => b4 u ++ b2 (u - m.barClock)) x.barredUntil
  ++ bFlag x.heldOut ++ b2 x.ovenCost ++ b2 x.pressure ++ b2 x.load ++ b2 m.passRound.toNat

/-- READ CHANNEL (R89). -/
def execReadChannel (now : AT) (s : State) : Result :=
  handle 0x40 1 now s fun p s =>
    match chanOf (arg p 0) with
    | some c => okay (channelBytes s.omap (s.chan c)) s
    | none => refuse .badArgument s

/-- The flags byte of a channel's summary (READ MAP response payload): bit 0 permitted, bit 1 OVER, bit 2 UNDER, bit 3 BAD,
bit 4 radar-barred, bit 5 held-out. -/
def summaryFlags (x : ChannelRecord) : Nat :=
  x.permitted.toNat + 2 * x.overRange.toNat + 4 * x.underRange.toNat + 8 * x.bad.toNat
    + 16 * x.barredUntil.isSome.toNat + 32 * x.heldOut.toNat

/-- R90: the payload of READ MAP. -/
def mapBytes (s : State) : List Byte :=
  b2 s.omap.passRound.toNat
  ++ allChans.flatMap fun c => b2 (s.chan c).load ++ b1 (summaryFlags (s.chan c))

/-- READ MAP (R90). -/
def execReadMap (now : AT) (s : State) : Result :=
  handle 0x41 0 now s fun _ s => okay (mapBytes s) s

/-- SET AVERAGING (R77). -/
def execSetAveraging (now : AT) (s : State) : Result :=
  handle 0x42 1 now s fun p s =>
    let d := arg1 p 0
    if d = 2 || d = 4 || d = 8 || d = 16 then okay (b1 d) (s.withOmap { s.omap with divisor := d })
    else refuse .badArgument s

/-- SET MARGIN (R78). -/
def execSetMargin (now : AT) (s : State) : Result :=
  handle 0x43 1 now s fun p s =>
    let m := clampNat 0 40 (arg1 p 0)
    okay (b1 m) (s.withOmap { s.omap with margin := m })

/-- SET WEIGHTS (R88). -/
def execSetWeights (now : AT) (s : State) : Result :=
  handle 0x44 3 now s fun p s =>
    let w := clampNat 0 200 (arg2 p 0)
    let t := clampNat 0 240 (arg1 p 2)
    okay (b2 w ++ b1 t) (s.withOmap { s.omap with weight := w, pressureThreshold := t })

/-- SET BAR TIME (R79). -/
def execSetBarTime (now : AT) (s : State) : Result :=
  handle 0x45 2 now s fun p s =>
    let t := clampNat 60 3600 (arg2 p 0)
    okay (b2 t) (s.withOmap { s.omap with barTime := t })

/-- R82: the held-out flag of a channel is set or cleared. -/
def setHeldOut (f : Bool) (p : List Byte) (s : State) : (Code × List Byte) × State :=
  match chanOf (arg p 0) with
  | some c => okay [] (s.setChan c { s.chan c with heldOut := f })
  | none => refuse .badArgument s

/-- BAR CHANNEL (R82). -/
def execBarChannel (now : AT) (s : State) : Result := handle 0x46 1 now s (setHeldOut true)

/-- UNBAR (R82). -/
def execUnbar (now : AT) (s : State) : Result := handle 0x47 1 now s (setHeldOut false)

/-! ## Timer rows -/

/-- BAR_CLOCK_TICK (R79): the bar clock rises by one at 1,000,000 µs from its previous rise, up to 2^32 - 1. -/
def execBarClockTick (now : AT) (s : State) : Result :=
  event now s fun s =>
    let due := addUs s.omap.lastRise Config.secondUs
    if reached due s.now then
      s.withOmap { s.omap with barClock := satInc Config.barClockMax s.omap.barClock, lastRise := due }
    else s

/-- RADAR_BAR_EXPIRY (R81): the bar clock has reached channel `c`'s barred-until. -/
def execRadarBarExpiry (now : AT) (c : Chan) (s : State) : Result :=
  event now s fun s =>
    match (s.chan c).barredUntil with
    | none => s
    | some u => if u ≤ s.omap.barClock then s.setChan c { s.chan c with barredUntil := none } else s

end Sys2Proof.Machine
end

