-- ==== Sys2Proof/Machine/Oven.lean ====
section
/-! DEFINITION. Oven tracking, OTK (chapter 3): phase error, matching, seeding, the hit update, timeouts, misses and
holdover, and the commands and timer rows of the trackers. -/

namespace Sys2Proof.Machine

/-- R30: an offer of a burst. -/
structure Offer where
  id : Byte
  chan : Chan
  start : AT
  duration : Nat
  cutStart : Bool
  cutEnd : Bool
deriving DecidableEq, Repr

/-! ## Phase error (R49) -/

/-- R49: the phase error e of a burst start against a tracker's anchor and period. -/
def phaseError (o : Oven) (s : AT) : Int :=
  let r := tdiff s o.anchor % (o.period : Int)
  if r ≤ (o.period : Int) / 2 then r else r - o.period

/-- R49: the window index k of the window the burst falls nearest. -/
def windowIndex (o : Oven) (s : AT) : Int := (tdiff s o.anchor - phaseError o s) / o.period

/-- R49: the predicted start s - e of that window. -/
def windowStart (o : Oven) (s : AT) : AT := addInt s (-(phaseError o s))

/-- R49: a burst start matches when its phase error is at most the tolerance. -/
def matchesOven (tolerance : Nat) (o : Oven) (s : AT) : Bool := (phaseError o s).natAbs ≤ tolerance

/-! ## Matching (R50) -/

/-- R50: of two trackers in number order, the one with the smaller error; a tie goes to the first. -/
def nearer (a b : Option (TrackerId × Nat)) : Option (TrackerId × Nat) :=
  match a, b with
  | none, b => b
  | some x, none => some x
  | some x, some y => if y.2 < x.2 then some y else some x

/-- R50: tracker `t` as a taker of a burst, with its absolute error. -/
def takerAt (s : State) (start : AT) (t : TrackerId) : Option (TrackerId × Nat) :=
  match (s.tracker t).oven with
  | none => none
  | some o =>
    if matchesOven s.otk.settings.tolerance o start then some (t, (phaseError o start).natAbs) else none

/-- R50: the tracker that takes a burst. -/
def takerOf (s : State) (start : AT) : Option TrackerId :=
  (nearer (nearer (takerAt s start .t0) (takerAt s start .t1)) (takerAt s start .t2)).map (·.1)

/-! ## Hit windows (R51) -/

/-- R51: a window start is added to a set, unless the set holds one within the tolerance or holds 8. -/
def addStart (tolerance : Nat) (w : AT) (starts : List AT) : List AT :=
  if starts.any (fun x => (tdiff x w).natAbs ≤ tolerance) || 8 ≤ starts.length then starts else starts ++ [w]

/-- R51: a hit is recorded in the set of its dwell; when two other sets are kept, the earlier one makes room. -/
def recordHit (tolerance : Nat) (id : Byte) (w : AT) (sets : List HitSet) : List HitSet :=
  if sets.any (fun x => x.id = id) then
    sets.map fun x => if x.id = id then { x with starts := addStart tolerance w x.starts } else x
  else (if 2 ≤ sets.length then sets.tail else sets) ++ [⟨id, [w]⟩]

/-- R60: the set of a dwell is discarded. -/
def dropHits (id : Byte) (sets : List HitSet) : List HitSet := sets.filter fun x => x.id ≠ id

/-! ## The hit update (R54 to R57) -/

/-- R54: the period step. -/
def hitPeriod (o : Oven) (s : AT) : Nat :=
  let delta := tdiff s o.lastHit
  if 0 < delta then
    let n := (delta.toNat + o.period / 2) / o.period
    if 1 ≤ n ∧ n ≤ 50 then
      let m := delta.toNat / n
      clampNat (periodBand o.candidate).1 (periodBand o.candidate).2
        ((o.period : Int) + truncDiv ((m : Int) - o.period) 8).toNat
    else o.period
  else o.period

/-- R55: the anchor step, with the phase error before the update. -/
def hitAnchor (o : Oven) (s : AT) (e : Int) : AT :=
  match o.phase with
  | .search _ => s
  | .locked => addInt (addInt s (-e)) (truncDiv e 4)
  | .holdover _ => addInt (addInt s (-e)) (truncDiv e 4)

/-- R56: the width step. -/
def hitWidth (width duration : Nat) (cut : Bool) : Nat :=
  if cut then width
  else clampNat 3000 12000 ((width : Int) + truncDiv ((duration : Int) - width) 4).toNat

/-- R56: the jitter step. -/
def hitJitter (jitter : Nat) (e : Int) : Nat :=
  min 2000 ((jitter : Int) + truncDiv ((e.natAbs : Int) - jitter) 8).toNat

/-- R56: the guard that a mode gives a jitter. -/
def guardFor (mode : GuardMode) (fixedGuard jitter : Nat) : Nat :=
  match mode with
  | .auto => clampNat 100 2000 (2 * jitter + 200)
  | .fixed => fixedGuard

/-- R54 to R57: the oven after a hit, all but its state. -/
def hitFields (set : TrackSettings) (tr : Tracker) (f : Offer) (o : Oven) : Oven :=
  let e := phaseError o f.start
  let jitter := hitJitter o.jitter e
  { o with
    period := hitPeriod o f.start
    anchor := hitAnchor o f.start e
    lastHit := f.start
    width := hitWidth o.width f.duration (f.cutStart || f.cutEnd)
    jitter
    guardUs := guardFor tr.mode tr.fixedGuard jitter
    lo := if f.chan.val < o.lo.val then f.chan else o.lo
    hi := if o.hi.val < f.chan.val then f.chan else o.hi
    hits := satInc 15 o.hits
    misses := 0
    hitSets := recordHit set.tolerance f.id (windowStart o f.start) o.hitSets }

/-- R57: the state step: the state after a hit and the event it raises. -/
def hitPhase (lockThreshold hits : Nat) : OvenPhase → OvenPhase × Option EventKind
  | .search start => if lockThreshold ≤ hits then (.locked, some .ovenLocked) else (.search start, none)
  | .holdover _ => (.locked, some .ovenBack)
  | .locked => (.locked, none)

/-- R50, R54 to R57: tracker `t` takes the burst. -/
def takeHit (f : Offer) (t : TrackerId) (s : State) : State :=
  match (s.tracker t).oven with
  | none => s
  | some o =>
    let o' := hitFields s.otk.settings (s.tracker t) f o
    let ph := hitPhase s.otk.settings.lockThreshold o'.hits o.phase
    let s' := s.setTracker t { s.tracker t with oven := some { o' with phase := ph.1 } }
    match ph.2 with
    | some k => raise k (trackerCode t) s'
    | none => s'

/-! ## Seeding (R52, R53) -/

/-- R52: the oven a burst seeds. -/
def seedOven (s : State) (tr : Tracker) (f : Offer) : Oven :=
  let m := firstCandidate s.host.mains
  { phase := .search s.now
    candidate := m
    secondTried := false
    period := nominalPeriod m
    anchor := f.start
    lastHit := f.start
    width := if f.cutStart || f.cutEnd then 8000 else clampNat 3000 12000 f.duration
    guardUs := guardFor tr.mode tr.fixedGuard 0
    jitter := 0
    hits := 1
    misses := 0
    lo := f.chan
    hi := f.chan
    hitSets := [⟨f.id, [f.start]⟩] }

/-- R52: the lowest-numbered IDLE tracker. -/
def idleTracker (s : State) : Option TrackerId := allTrackers.find? fun t => (s.tracker t).oven.isNone

/-- R52, R53: an oven candidate is offered for seeding. -/
def seed (f : Offer) (s : State) : State :=
  match idleTracker s with
  | some t => s.setTracker t { s.tracker t with oven := some (seedOven s (s.tracker t) f) }
  | none => raise .trackersFull f.chan.val s

/-! ## Entering IDLE -/

/-- R11, R15: a watch dwell whose tracker enters IDLE is no longer for it. -/
def forgetWatch (t : TrackerId) (c : Current) : Current :=
  if c.dwell.watchFor = some t then { c with dwell := { c.dwell with watchFor := none } } else c

/-- R47, R20: tracker `t` enters IDLE: its fields are cleared and its last watch start becomes absent. -/
def toIdle (t : TrackerId) (s : State) : State :=
  (s.setTracker t { s.tracker t with oven := none }).withSsc { s.ssc with
    lastWatch := s.ssc.lastWatch.set t none
    current := s.ssc.current.map (forgetWatch t) }

/-! ## Timeouts -/

/-- R58: a SEARCH tracker's timeout: alternation, or IDLE with SEARCH_FAILED. -/
def searchTimedOut (t : TrackerId) (o : Oven) (s : State) : State :=
  if bothAllowed s.host.mains && !o.secondTried then
    let m := otherCandidate o.candidate
    s.setTracker t { s.tracker t with oven := some { o with
      phase := .search s.now, candidate := m, secondTried := true, period := nominalPeriod m, hits := 1 } }
  else raise .searchFailed (trackerCode t) (toIdle t s)

/-- R62: a HOLDOVER tracker's expiry. -/
def holdoverExpired (t : TrackerId) (s : State) : State := raise .ovenGone (trackerCode t) (toIdle t s)

/-! ## Misses and holdover -/

/-- R60: the starts, counted from the dwell's ready AT, of the windows whose unguarded interval lies wholly within the
dwell. -/
def windowsWithin (o : Oven) (ready : AT) (lengthUs : Nat) : List Int :=
  let first := tdiff o.anchor ready % (o.period : Int)
  ((List.range (lengthUs / o.period + 1)).map fun i : Nat => first + (i : Int) * o.period).filter fun x =>
    decide (0 ≤ x ∧ x + o.width ≤ lengthUs)

/-- R60: whether the window at `x` is examined: no covered interval overlaps its unguarded interval. -/
def examinedWindow (o : Oven) (covered : List (Int × Int)) (x : Int) : Bool :=
  !covered.any fun i => overlaps i (x, x + o.width)

/-- R60: whether the window at `x` was hit during the dwell `id`. -/
def windowHit (tolerance : Nat) (o : Oven) (id : Byte) (ready : AT) (x : Int) : Bool :=
  o.hitSets.any fun h => h.id = id && h.starts.any fun w => (tdiff w (addInt ready x)).natAbs ≤ tolerance

/-- R60: the windows of a dwell that were missed. -/
def missedWindows (tolerance : Nat) (o : Oven) (id : Byte) (ready : AT) (lengthUs : Nat)
    (covered : List (Int × Int)) : Nat :=
  ((windowsWithin o ready lengthUs).filter fun x =>
    examinedWindow o covered x && !windowHit tolerance o id ready x).length

/-- R61, R64: a LOCKED tracker enters HOLDOVER, raising OVEN_LOST with the given detail. -/
def enterHoldover (t : TrackerId) (o : Oven) (detail : Nat) (s : State) : State :=
  raise .ovenLost detail
    (s.setTracker t { s.tracker t with oven := some { o with phase := .holdover s.now } })

/-- R60, R61: one tracker meets a dwell span. -/
def examineTracker (id : Byte) (chan : Chan) (ready : AT) (lengthUs : Nat) (covered : List (Int × Int))
    (s : State) (t : TrackerId) : State :=
  match (s.tracker t).oven with
  | none => s
  | some o =>
    let kept := { o with hitSets := dropHits id o.hitSets }
    if o.phase = .locked && covers o chan then
      let missed := missedWindows s.otk.settings.tolerance o id ready lengthUs covered
      let o' := { kept with misses := min 15 (o.misses + missed) }
      if s.otk.settings.missLimit ≤ o'.misses then enterHoldover t o' (trackerCode t) s
      else s.setTracker t { s.tracker t with oven := some o' }
    else s.setTracker t { s.tracker t with oven := some kept }

/-- R60, R61: the trackers take a dwell span, in tracker-number order. -/
def dwellSpan (id : Byte) (chan : Chan) (ready : AT) (lengthUs : Nat) (covered : List (Int × Int)) (s : State) :
    State :=
  allTrackers.foldl (examineTracker id chan ready lengthUs covered) s

/-- R64: one tracker at a sense FAULT. -/
def faultTracker (s : State) (t : TrackerId) : State :=
  match (s.tracker t).oven with
  | none => s
  | some o => if o.phase = .locked then enterHoldover t o (trackerCode t + 16) s else s

/-- R64: the trackers at a sense FAULT, in tracker-number order. -/
def faultTrackers (s : State) : State := allTrackers.foldl faultTracker s

/-! ## Settings and host commands -/

/-- R48: after a change of the holdover time, a tracker whose expiry has already passed expires at the command. -/
def expirePassed (s : State) (t : TrackerId) : State :=
  match (s.tracker t).oven with
  | none => s
  | some o =>
    match o.phase with
    | .holdover start =>
      if passed (addUs start (s.otk.settings.holdoverMs * 1000)) s.now then holdoverExpired t s else s
    | .search _ => s
    | .locked => s

/-- The six settings as a response carries them (R48, R70). -/
def settingsBytes (x : TrackSettings) : List Byte :=
  b2 x.tolerance ++ b1 x.lockThreshold ++ b1 x.missLimit ++ b2 x.holdoverMs ++ b2 x.searchGuard ++ b1 x.policy.code

/-- R48: the settings that SET TRACKING stores. -/
def trackSettingsOf (p : List Byte) (policy : Policy) : TrackSettings :=
  { tolerance := clampNat 200 2000 (arg2 p 0)
    lockThreshold := clampNat 3 15 (arg1 p 2)
    missLimit := clampNat 2 15 (arg1 p 3)
    holdoverMs := clampNat 0 60000 (arg2 p 4)
    searchGuard := clampNat 100 2000 (arg2 p 6)
    policy }

/-- SET TRACKING (R48). Several trackers that expire at one command are taken in tracker-number order, which decides the
detail that OVEN_GONE is left with; R48, R62 and R205 give no order (DESIGN CHOICE, log entry 15). -/
def execSetTracking (now : AT) (s : State) : Result :=
  handle 0x30 9 now s fun p s =>
    match policyOf (arg p 8) with
    | none => refuse .badArgument s
    | some policy =>
      let x := trackSettingsOf p policy
      okay (settingsBytes x) (allTrackers.foldl expirePassed (s.withOtk { s.otk with settings := x }))

/-- R68: the tracker after SET TRACKER. -/
def retuned (tr : Tracker) (mode : GuardMode) (g : Nat) : Tracker :=
  { oven := tr.oven.map fun o => { o with guardUs := g }, mode, fixedGuard := g }

/-- SET TRACKER (R68). -/
def execSetTracker (now : AT) (s : State) : Result :=
  handle 0x31 4 now s fun p s =>
    match trackerOf (arg p 0), guardModeOf (arg p 1) with
    | some t, some mode =>
      let g := clampNat 100 2000 (arg2 p 2)
      okay (b2 g) (s.setTracker t (retuned (s.tracker t) mode g))
    | _, _ => refuse .badArgument s

/-- RESTART TRACKER (R71). -/
def execRestartTracker (now : AT) (s : State) : Result :=
  handle 0x32 1 now s fun p s =>
    match trackerOf (arg p 0) with
    | some t => okay [] (toIdle t s)
    | none => refuse .badArgument s

/-- R70: the instant of a tracker's next timeout. -/
def nextTimeout (set : TrackSettings) (o : Oven) : Option AT :=
  match o.phase with
  | .search start => some (addUs start Config.searchUs)
  | .locked => none
  | .holdover start => some (addUs start (set.holdoverMs * 1000))

/-- R70: the start of the first window that begins at or after `now`. -/
def nextWindow (o : Oven) (now : AT) : AT := addInt now (tdiff o.anchor now % (o.period : Int))

def searchStart (o : Oven) : Option AT :=
  match o.phase with
  | .search start => some start
  | .locked => none
  | .holdover _ => none

def holdoverStart (o : Oven) : Option AT :=
  match o.phase with
  | .search _ => none
  | .locked => none
  | .holdover start => some start

/-- R70: the payload of READ TRACKER. -/
def trackerBytes (set : TrackSettings) (now : AT) (tr : Tracker) : List Byte :=
  b1 (trackerStateCode tr)
  ++ bOpt 1 (fun o : Oven => b1 o.candidate.code) tr.oven
  ++ bFlag (tr.oven.any (·.secondTried))
  ++ bOpt 2 (fun o : Oven => b2 o.period) tr.oven
  ++ bOpt 4 (fun o : Oven => bAT o.anchor) tr.oven
  ++ bOpt 4 (fun o : Oven => bAT o.lastHit) tr.oven
  ++ bOpt 2 (fun o : Oven => b2 o.width) tr.oven
  ++ bOpt 2 (fun o : Oven => b2 o.guardUs) tr.oven
  ++ bOpt 2 (fun o : Oven => b2 (effectiveGuard set o)) tr.oven
  ++ bOpt 2 (fun o : Oven => b2 o.jitter) tr.oven
  ++ b1 ((tr.oven.map (·.hits)).getD 0)
  ++ b1 ((tr.oven.map (·.misses)).getD 0)
  ++ bOpt 2 (fun o : Oven => bChan o.lo ++ bChan o.hi) tr.oven
  ++ bOpt 4 bAT (tr.oven.bind searchStart)
  ++ bOpt 4 bAT (tr.oven.bind holdoverStart)
  ++ bOpt 4 bAT (tr.oven.bind (nextTimeout set))
  ++ bOpt 4 (fun o : Oven => bAT (nextWindow o now)) tr.oven
  ++ b1 tr.mode.code
  ++ b2 tr.fixedGuard
  ++ settingsBytes set

/-- READ TRACKER (R70). -/
def execReadTracker (now : AT) (s : State) : Result :=
  handle 0x33 1 now s fun p s =>
    match trackerOf (arg p 0) with
    | some t => okay (trackerBytes s.otk.settings s.now (s.tracker t)) s
    | none => refuse .badArgument s

/-! ## Timer rows -/

/-- SEARCH_TIMEOUT (R58): 400 ms after its search start, a SEARCH tracker times out. -/
def execSearchTimeout (now : AT) (t : TrackerId) (s : State) : Result :=
  event now s fun s =>
    match (s.tracker t).oven with
    | none => s
    | some o =>
      match o.phase with
      | .search start => if reached (addUs start Config.searchUs) s.now then searchTimedOut t o s else s
      | .locked => s
      | .holdover _ => s

/-- HOLDOVER_EXPIRY (R62): the holdover time has passed from the holdover start. -/
def execHoldoverExpiry (now : AT) (t : TrackerId) (s : State) : Result :=
  event now s fun s =>
    match (s.tracker t).oven with
    | none => s
    | some o =>
      match o.phase with
      | .holdover start =>
        if reached (addUs start (s.otk.settings.holdoverMs * 1000)) s.now then holdoverExpired t s else s
      | .search _ => s
      | .locked => s

end Sys2Proof.Machine
end

