-- ==== Sys2Proof/Machine/Intake.lean ====
section
/-! DEFINITION. Burst intake, BCL (chapter 2): the tallies, classification, the hand-over at dwell close, the range flags,
the outcomes of a calibration run, and the classifier's commands that touch no other block. -/

namespace Sys2Proof.Machine

/-- The class of a burst. -/
inductive BurstClass
  | own
  | weak
  | frame
  | oven
  | other
deriving DecidableEq, Repr

/-! ## The tally (R26) -/

/-- R26: the tally of a dwell that opens. -/
def emptyTally (d : Dwell) (ready : AT) : Tally :=
  { id := d.id, kind := d.kind, chan := d.chan, ready, lengthMs := d.lengthMs
    busy := ⟨0, 0, 0⟩, counts := ⟨0, 0, 0, 0, 0⟩, saturated := false }

/-- R26: a burst of a class with a clipped duration is added to a tally; counts saturate at 255. -/
def tallied (cls : BurstClass) (us : Nat) (t : Tally) : Tally :=
  match cls with
  | .own => { t with counts := { t.counts with own := satInc 255 t.counts.own } }
  | .weak => { t with counts := { t.counts with weak := satInc 255 t.counts.weak } }
  | .frame => { t with
      counts := { t.counts with frame := satInc 255 t.counts.frame }
      busy := { t.busy with frame := t.busy.frame + us } }
  | .oven => { t with
      counts := { t.counts with oven := satInc 255 t.counts.oven }
      busy := { t.busy with oven := t.busy.oven + us } }
  | .other => { t with
      counts := { t.counts with other := satInc 255 t.counts.other }
      busy := { t.busy with other := t.busy.other + us } }

/-- The tally keyed by `id` is changed by `f`. -/
def onTally (id : Byte) (f : Tally → Tally) (s : State) : State :=
  s.withBcl { s.bcl with tallies := s.bcl.tallies.map fun t => if t.id = id then f t else t }

/-- R26: a SWEEP or WATCH dwell opens and its tally is created; a REFERENCE dwell has none. -/
def openTally (d : Dwell) (ready : AT) (s : State) : State :=
  if d.kind = .reference then s
  else s.withBcl { s.bcl with tallies := s.bcl.tallies ++ [emptyTally d ready] }

/-! ## Classification (R27 to R32) -/

/-- R27: a burst is OWN when it overlaps an entry of its band's recent-grant list. -/
def isOwn (s : State) (b : Band) (start : AT) (duration : Nat) : Bool :=
  (s.recent b).any fun e => overlaps (spanFrom start e.start e.stop) (0, duration)

/-- R37: a saturated burst that is not OWN sets the tally's flag and the channel's OVER flag; RANGE when OVER was clear. -/
def markOver (d : Dwell) (s : State) : State :=
  let s1 := onTally d.id (fun t => { t with saturated := true }) s
  let s2 := s1.setChan d.chan { s1.chan d.chan with overRange := true }
  if (s.chan d.chan).overRange then s2 else raise .range d.chan.val s2

/-- R30, R31: a 2.4 GHz burst of 1000–12000 µs: matching, then seeding from 5485 µs on, else FRAME. -/
def offerBurst (f : Offer) (us : Nat) (s : State) : State :=
  match takerOf s f.start with
  | some t => onTally f.id (tallied .oven us) (takeHit f t s)
  | none =>
    if Config.frameMaxUs < f.duration then onTally f.id (tallied .oven us) (seed f s)
    else onTally f.id (tallied .frame us) s

/-- R29 to R31: the tests of a burst that is neither OWN nor WEAK. -/
def bandTests (f : Offer) (us : Nat) (s : State) : State :=
  match bandOf f.chan with
  | .ghz5 => onTally f.id (tallied (if f.duration ≤ Config.frameMaxUs then .frame else .other) us) s
  | .ghz24 =>
    if Config.ovenMaxUs < f.duration then onTally f.id (tallied .other us) s
    else if Config.offerMinUs ≤ f.duration then offerBurst f us s
    else onTally f.id (tallied .frame us) s

/-- R32: the clipped duration of a burst at an offset into a dwell. -/
def clippedUs (lengthUs offset duration : Nat) : Nat := min duration (lengthUs - offset)

/-- R24 to R32: a burst that SSC passes on for dwell `d`, opened at `ready`. -/
def takeBurst (d : Dwell) (ready : AT) (offset duration : Nat) (raw : Byte) (cutStart cutEnd : Bool) (s : State) :
    State :=
  if d.lengthMs * 1000 ≤ offset then s
  else
    let f : Offer := ⟨d.id, d.chan, addUs ready offset, duration, cutStart, cutEnd⟩
    let us := clippedUs (d.lengthMs * 1000) offset duration
    if isOwn s (bandOf d.chan) f.start duration then onTally d.id (tallied .own us) s
    else
      let s1 := if saturatedRaw raw then markOver d s else s
      if corrected raw (s.chan d.chan).correction < threshold s.omap.margin (s.chan d.chan) then
        onTally d.id (tallied .weak us) s1
      else bandTests f us s1

/-! ## The hand-over at dwell close (R33 to R38) -/

/-- R33: the covered intervals of a dwell, counted from its ready AT. -/
def coveredOf (s : State) (b : Band) (ready : AT) (lengthUs : Nat) : List (Int × Int) :=
  unionOf ((s.recent b).map fun e => clip 0 lengthUs (spanFrom ready e.start e.stop))

/-- R37: at a close, OVER is cleared when the tally saw no saturated burst. -/
def closeOver (saturated : Bool) (x : ChannelRecord) : ChannelRecord :=
  { x with overRange := x.overRange && saturated }

/-- R38: UNDER follows the raw floor of a CLOSE; RANGE when it rises. -/
def closeUnder (c : Chan) (rep : Option Report) (s : State) : State :=
  match rep with
  | none => s
  | some p =>
    let rises := p.rawFloor.toNat = 0 && !(s.chan c).underRange
    let s' := s.setChan c { s.chan c with underRange := p.rawFloor.toNat = 0 }
    if rises then raise .range c.val s' else s'

/-- R34: the floor report of a close. -/
def floorReportOf (s : State) (c : Chan) (rep : Option Report) : Option Nat :=
  rep.map fun p => corrected p.rawFloor (s.chan c).correction

/-- R33 to R38: the hand-over of a SWEEP or WATCH dwell at its close. -/
def handOver (d : Dwell) (ready : AT) (rep : Option Report) (s : State) : State :=
  let t := (s.bcl.tallies.find? fun t => t.id = d.id).getD (emptyTally d ready)
  let covered := coveredOf s (bandOf d.chan) ready (d.lengthMs * 1000)
  let observed := d.lengthMs * 1000 - totalLength covered
  let f := floorReportOf s d.chan rep
  let h : HandOver :=
    { id := d.id, kind := d.kind, chan := d.chan, ready, lengthMs := d.lengthMs, observed
      covered := totalLength covered, busy := t.busy, floorReport := f, counts := t.counts }
  let s1 := s.withBcl { s.bcl with
    tallies := s.bcl.tallies.filter fun x => x.id ≠ d.id
    lastHandOver := some h }
  let s2 := dwellReport d.chan observed t.busy f s1
  let s3 := s2.setChan d.chan (closeOver t.saturated (s2.chan d.chan))
  dwellSpan d.id d.chan ready (d.lengthMs * 1000) covered (closeUnder d.chan rep s3)

/-! ## Outcomes of a calibration run (R41 to R43) -/

/-- R39: whether the mask names a channel. -/
def inMask (mask : BitVec 40) (c : Chan) : Bool := mask.getLsbD c.val

/-- R41: whether an outcome of a dwell on channel `c` applies to channel `x`. -/
def outcomeApplies (run : CalRun) (c x : Chan) : Bool :=
  match run.mode with
  | some .measure => x = c
  | some .quick => inMask run.mask x && bandOf x = bandOf c
  | some .revert => false
  | none => false

/-- R41: the correction that a measured raw reference level gives, when it is in range. -/
def measuredCorrection (m : Option Byte) : Option Int :=
  match m with
  | none => none
  | some b =>
    let c := 120 - (b.toNat : Int)
    if -16 ≤ c ∧ c ≤ 15 then some c else none

/-- R41: a channel an outcome applies to. -/
def outcomeOn (correction : Option Int) (x : ChannelRecord) : ChannelRecord :=
  match correction with
  | some c => { x with correction := c, bad := false }
  | none => { x with bad := true }

/-- R42, R43: the run ends with a status, and CALIBRATION is raised. -/
def endRun (status : CalStatus) (s : State) : State :=
  raise .calibration status.detail (s.withBcl { s.bcl with cal := { s.bcl.cal with status } })

/-- R43: the run ends because SSC emptied the queue for a sense FAULT. -/
def endRunForFault (s : State) : State :=
  endRun .bad (s.withBcl { s.bcl with cal := { s.bcl.cal with remaining := 0 } })

/-- R41, R42: the outcome of the reference dwell `d`: the raw reference level of its CLOSE, or nothing. Discarded when no
run is RUNNING (R43). -/
def calOutcome (d : Dwell) (m : Option Byte) (s : State) : State :=
  let run := s.bcl.cal
  if run.status = .running then
    let correction := measuredCorrection m
    let runBad := run.runBad || correction.isNone
    let s1 := s.withOmap { s.omap with
      channels := chanTable fun x =>
        if outcomeApplies run d.chan x then outcomeOn correction (s.chan x) else s.chan x }
    let s2 := s1.withBcl { s1.bcl with cal := { run with remaining := run.remaining - 1, runBad } }
    if d.last then endRun (if runBad then .bad else .done) s2 else s2
  else s

/-! ## Host commands -/

/-- WRITE CORRECTION (R44). -/
def execWriteCorrection (now : AT) (s : State) : Result :=
  handle 0x21 2 now s fun p s =>
    match chanOf (arg p 0) with
    | none => refuse .badArgument s
    | some c =>
      if s.bcl.cal.status = .running then refuse .busy s
      else
        let v := clampInt (-16) 15 (arg p 1).toInt
        okay (bSigned v) (s.setChan c { s.chan c with correction := v })

/-- R44: the payload of READ CALIBRATION. The 38 channels have a correction and a BAD mark each, channel by channel, without a
byte that counts them (DESIGN CHOICE, log entry 18). -/
def calibrationBytes (s : State) : List Byte :=
  b1 s.bcl.cal.status.code ++ bOpt 1 (fun m : CalMode => b1 m.code) s.bcl.cal.mode ++ b5 s.bcl.cal.mask
  ++ b1 s.bcl.cal.remaining ++ bFlag s.bcl.cal.runBad
  ++ allChans.flatMap fun c => bSigned (s.chan c).correction ++ bFlag (s.chan c).bad

/-- READ CALIBRATION (R44). -/
def execReadCalibration (now : AT) (s : State) : Result :=
  handle 0x22 0 now s fun _ s => okay (calibrationBytes s) s

/-- R36: the last hand-over in the payload of READ INTAKE. R184 gives a busy sum four bytes, and no rule bounds the sum: one
beyond them is sent by its low four bytes (DESIGN CHOICE, log entry 31). -/
def handOverBytes (h : HandOver) : List Byte :=
  [h.id] ++ b1 h.kind.code ++ bChan h.chan ++ bAT h.ready ++ b1 h.lengthMs ++ b4 h.observed ++ b4 h.covered
  ++ b4 h.busy.frame ++ b4 h.busy.oven ++ b4 h.busy.other ++ bOpt 1 b1 h.floorReport
  ++ b1 h.counts.own ++ b1 h.counts.weak ++ b1 h.counts.frame ++ b1 h.counts.oven ++ b1 h.counts.other

/-- READ INTAKE (R36). -/
def execReadIntake (now : AT) (s : State) : Result :=
  handle 0x23 0 now s fun _ s => okay (bOpt 35 handOverBytes s.bcl.lastHandOver) s

end Sys2Proof.Machine
end

