-- ==== Sys2Proof/Machine/Neighbours.lean ====
section
/-! DEFINITION. The neighbour table, NTAB (chapter 5): overheard reports, eviction, shares and ageing, friendly marks, and
the table's commands. -/

namespace Sys2Proof.Machine

/-! ## Overheard reports -/

/-- R94: whether an entry has the key (network id, channel). -/
def hasKey (network : BitVec 32) (c : Chan) (e : Neighbour) : Bool := e.network = network && e.chan = c

/-- R96: an entry after a report of its key. -/
def refreshed (level : Nat) (airtime : Nat) (now : Heard) (r : Radio) (e : Neighbour) : Neighbour :=
  { e with
    level
    accumulator := min Config.accumulatorMax (e.accumulator + airtime)
    latest := now
    reporter := r }

/-- R97: the entry a report makes, beside the entries that remain. -/
def newEntry (network : BitVec 32) (c : Chan) (level airtime : Nat) (now : Heard) (r : Radio)
    (others : List Neighbour) : Neighbour :=
  { network, chan := c, level, share := 0, accumulator := airtime, first := now, latest := now, reporter := r
    friendly := others.any fun e => e.network = network && e.friendly }

/-- R97, R98: a new entry is made at the head; a full table loses its tail first, with NEIGHBOUR_EVICTED. -/
def makeEntry (network : BitVec 32) (c : Chan) (level airtime : Nat) (r : Radio) (s : State) : State :=
  let full := Config.tableSize ≤ s.ntab.entries.length
  let kept := if full then s.ntab.entries.dropLast else s.ntab.entries
  let s' := s.withNtab { s.ntab with
    entries := newEntry network c level airtime s.heard r kept :: kept
    changeNumber := s.ntab.changeNumber + 1 }
  match s.ntab.entries.getLast? with
  | some tail => if full then raise .neighbourEvicted tail.chan.val s' else s'
  | none => s'

/-- R95: the table takes a report of a network on channel `c` from radio `r`. -/
def overheardReport (r : Radio) (network : BitVec 32) (c : Chan) (raw : Byte) (airtime : BitVec 32) (s : State) : State :=
  let level := corrected raw (s.chan c).correction
  match s.ntab.entries.find? (hasKey network c) with
  | some e =>
    s.withNtab { s.ntab with
      entries := refreshed level airtime.toNat s.heard r e
        :: s.ntab.entries.filter fun x => !hasKey network c x
      changeNumber := s.ntab.changeNumber + 1 }
  | none => makeEntry network c level airtime.toNat r s

/-! ## Shares and ageing at round completion -/

/-- R101: an entry's share and accumulator after a completion with interval `interval`. -/
def shared (interval : Nat) (e : Neighbour) : Neighbour :=
  { e with share := moveToward e.share (min 1000 (e.accumulator * 1000 / interval)) 4, accumulator := 0 }

/-- R102: an entry's age on the bar clock. -/
def ageOf (barClock : Nat) (e : Neighbour) : Nat := barClock - e.latest.second

/-- R102: aged entries leave from the tail toward the head. -/
def dropAged (barClock limit : Nat) : List Neighbour → List Neighbour
  | [] => []
  | e :: rest =>
    match dropAged barClock limit rest with
    | [] => if limit < ageOf barClock e then [] else [e]
    | kept => e :: kept

/-- R100: the interval since the last completion, at least 1000 µs. -/
def completionInterval (s : State) : Nat := (max 1000 (tdiff s.now s.ntab.lastCompletion)).toNat

/-- R100 to R102: the table's step at a round completion. -/
def tableCompletion (s : State) : State :=
  s.withNtab { s.ntab with
    entries := dropAged s.omap.barClock s.ntab.ageLimit (s.ntab.entries.map (shared (completionInterval s)))
    lastCompletion := s.now
    changeNumber := s.ntab.changeNumber + 1 }

/-- R107: the table's part of RESET MAP. -/
def resetTable (s : State) : State :=
  s.withNtab { s.ntab with
    entries := [], lastCompletion := s.now, changeNumber := s.ntab.changeNumber + 1 }

/-! ## Host commands -/

/-- R105: an entry of the response, 35 bytes. -/
def neighbourBytes (barClock : Nat) (pe : Nat × Neighbour) : List Byte :=
  let e := pe.2
  b1 pe.1 ++ b4 e.network.toNat ++ bChan e.chan ++ b1 e.level ++ b2 e.share ++ b4 e.accumulator
  ++ bAT e.first.instant ++ b4 e.first.second ++ bAT e.latest.instant ++ b4 e.latest.second
  ++ b4 (ageOf barClock e) ++ b1 (radioCode e.reporter) ++ bFlag e.friendly

/-- The entries of a list from position `start`, up to `count`, with their positions. -/
def page {α : Type} (start count : Nat) (xs : List α) : List (Nat × α) :=
  ((List.range xs.length).zip xs |>.drop start).take count

/-- R105: the payload of READ NEIGHBOURS. -/
def neighboursBytes (start count : Nat) (s : State) : List Byte :=
  b1 s.ntab.entries.length ++ b2 s.ntab.changeNumber.toNat ++ b2 s.ntab.ageLimit ++ bAT s.ntab.lastCompletion
  ++ b4 s.omap.barClock ++ bRun (neighbourBytes s.omap.barClock) (page start count s.ntab.entries)

/-- READ NEIGHBOURS (R105). -/
def execReadNeighbours (now : AT) (s : State) : Result :=
  handle 0x50 2 now s fun p s =>
    if arg1 p 0 ≤ 63 ∧ 1 ≤ arg1 p 1 ∧ arg1 p 1 ≤ 6 then okay (neighboursBytes (arg1 p 0) (arg1 p 1) s) s
    else refuse .badArgument s

/-- R104: an entry under a mark for a network. -/
def marked (network : BitVec 32) (f : Bool) (e : Neighbour) : Neighbour :=
  if e.network = network then { e with friendly := f } else e

/-- R104: the number of entries whose flag a mark changes. -/
def markChanges (network : BitVec 32) (f : Bool) (es : List Neighbour) : Nat :=
  (es.filter fun e => e.network = network && e.friendly ≠ f).length

/-- MARK FRIENDLY (R104). -/
def execMarkFriendly (now : AT) (s : State) : Result :=
  handle 0x51 5 now s fun p s =>
    match flagOf (arg p 4) with
    | none => refuse .badArgument s
    | some f =>
      let n := markChanges (arg4 p 0) f s.ntab.entries
      okay (b1 n) (s.withNtab { s.ntab with
        entries := s.ntab.entries.map (marked (arg4 p 0) f)
        changeNumber := if n = 0 then s.ntab.changeNumber else s.ntab.changeNumber + 1 })

/-- SET NEIGHBOUR AGE (R103). -/
def execSetNeighbourAge (now : AT) (s : State) : Result :=
  handle 0x52 2 now s fun p s =>
    let a := clampNat 10 3600 (arg2 p 0)
    okay (b2 a) (s.withNtab { s.ntab with ageLimit := a })

end Sys2Proof.Machine
end

