-- ==== Sys2Proof/Machine/Planner.lean ====
section
/-! DEFINITION. The channel planner, CPL (chapter 6): eligibility, the planning pass, proposals and switch orders, radar
moves, holding, the host-silence action, and the planner's commands. -/

namespace Sys2Proof.Machine

/-! ## Eligibility (R111, R112) -/

/-- R111, 4 and 5: a channel keeps clear of the other radio's channel and of its switch's target. -/
def clearOfOther (s : State) (r : Radio) (c : Chan) : Bool :=
  (match (s.link (otherRadio r)).chan with
    | some d => separated c d
    | none => true)
  && (match (s.record (otherRadio r)).inFlight with
    | some w => separated c w.target
    | none => true)

/-- R111: a channel is eligible for a radio. -/
def eligible (s : State) (r : Radio) (c : Chan) : Bool :=
  match (s.link r).chan with
  | none => false
  | some cur => bandOf c = bandOf cur && (s.chan c).permitted && !barred (s.chan c) && clearOfOther s r c

/-- R112: the lesser loaded of a best so far and a later index; a tie stays with the lower index. -/
def lesserLoad (s : State) (best : Option Chan) (c : Chan) : Option Chan :=
  match best with
  | none => some c
  | some b => if (s.chan c).load < (s.chan b).load then some c else some b

/-- R112: the best eligible channel of a radio. -/
def bestOf (s : State) (r : Radio) : Option Chan := (allChans.filter (eligible s r)).foldl (lesserLoad s) none

/-! ## Switch orders and radar moves -/

/-- R119, R122, R124: sustain 0, no candidate, no standing proposal. -/
def dropPlans (x : PlanRecord) : PlanRecord := { x with sustain := 0, candidate := none, proposal := none }

/-- R119: the deadline of an order with announce count `n`. -/
def orderDeadline (now : AT) (n : Nat) : AT := addUs now (n * Config.beaconUs + Config.confirmUs)

/-- R119: a switch order for radio `r`, now on `cur`, to channel `c`. -/
def switchOrder (r : Radio) (cur c : Chan) (n : Nat) (source : Source) (s : State) : State :=
  let s' := sendRadio r (.switch c n) s
  s'.setRecord r { dropPlans (s'.record r) with
    inFlight := some ⟨c, n, orderDeadline s.now n, source, cur⟩ }

/-- R125: a radar move of radio `r`, when it is KNOWN, has no switch in flight and its gate is neither OFF nor SAFE. -/
def radarMove (r : Radio) (s : State) : State :=
  match (s.link r).chan with
  | none => s
  | some cur =>
    if (s.record r).inFlight.isNone && gateServes (s.gate r) then
      match bestOf s r with
      | some b => switchOrder r cur b 1 .radar s
      | none => raise .noChannel (radioCode r) s
    else s

/-- R122, R124: a radar move follows a change of channel onto a radar-barred channel. -/
def moveIfRadar (r : Radio) (c : Chan) (s : State) : State :=
  if (s.chan c).barredUntil.isSome then radarMove r s else s

/-- R125, R126: a RADAR naming channel `c` in the planner, radio 0 first. -/
def radarAt (c : Chan) (r : Radio) (s : State) : State :=
  if (s.link r).chan = some c then radarMove r s else s

def plannerRadar (c : Chan) (s : State) : State := radarAt c .r1 (radarAt c .r0 s)

/-! ## Changes of channel -/

/-- R122, R124: the planning record after its radio's channel has changed. -/
def changedRecord (now : Heard) (x : PlanRecord) : PlanRecord :=
  { dropPlans x with lastSwitch := some now, inFlight := none }

/-- R122, R124: radio `r` is on channel `c`. -/
def placeRadio (r : Radio) (c : Chan) (s : State) : State := s.setLink r { s.link r with chan := some c }

/-- R122: a switch in flight is closed by a record naming channel `c`. -/
def closeSwitch (r : Radio) (w : Switch) (c : Chan) (s : State) : State :=
  let s1 := placeRadio r c s
  let s2 := s1.setRecord r (changedRecord s1.heard (s1.record r))
  let s3 := raise .switchDone (radioCode r) s2
  let s4 := if c = w.target then s3 else raise .channelMismatch (radioCode r) s3
  moveIfRadar r c s4

/-- R124, R171: radio `r`'s channel changes to `c` with no switch in flight. -/
def changeOutside (r : Radio) (c : Chan) (s : State) : State :=
  let s1 := raise .channelMismatch (radioCode r) (placeRadio r c s)
  moveIfRadar r c (s1.setRecord r (changedRecord s1.heard (s1.record r)))

/-! ## The planning pass -/

/-- R115: the load that the sustain test takes for the current channel. -/
def currentLoad (s : State) (cur : Chan) : Nat := if (s.chan cur).permitted then (s.chan cur).load else 1000

/-- R115: the sustain test: the new sustain count and candidate. -/
def sustainTest (s : State) (cur : Chan) (best : Option Chan) (x : PlanRecord) : Nat × Option Chan :=
  match best with
  | none => (0, none)
  | some b =>
    if b ≠ cur ∧ (s.chan b).load + s.cpl.hysteresis ≤ currentLoad s cur then
      if x.candidate = some b then (satInc 15 x.sustain, some b) else (1, some b)
    else (0, none)

/-- R116: the minimum stay has passed. -/
def stayPassed (s : State) (x : PlanRecord) : Bool :=
  match x.lastSwitch with
  | none => true
  | some h => h.second + s.cpl.minStay ≤ s.omap.barClock

/-- R117: whether a proposal of `c` is news to the host. -/
def newsOf (c : Chan) (old : Option Proposal) : Bool :=
  match old with
  | none => true
  | some p => p.chan ≠ c

/-- R117: a proposal of channel `c` for radio `r` on `cur`. -/
def propose (r : Radio) (cur c : Chan) (s : State) : State :=
  let p : Proposal := ⟨c, s.omap.passRound, (s.chan cur).load, (s.chan c).load⟩
  let s' := s.setRecord r { s.record r with proposal := some p, sustain := 0, candidate := none }
  if newsOf c (s.record r).proposal then raise .proposal (radioCode r) s' else s'

/-- R116: the action test, for the best channel. -/
def actionTest (r : Radio) (cur : Chan) (best : Option Chan) (s : State) : State :=
  match best with
  | none => s
  | some b =>
    if s.cpl.sustainLimit ≤ (s.record r).sustain ∧ stayPassed s (s.record r) = true then
      match s.cpl.mode with
      | .auto => switchOrder r cur b (s.record r).announce .planner s
      | .advise => propose r cur b s
      | .fixed => s
    else s

/-- R115, R116: the sustain test and the action test. -/
def sustainAndAct (r : Radio) (cur : Chan) (best : Option Chan) (s : State) : State :=
  let t := sustainTest s cur best (s.record r)
  actionTest r cur best (s.setRecord r { s.record r with sustain := t.1, candidate := t.2 })

/-- R114 to R116: the planning step of radio `r` on channel `cur`. -/
def planningStep (r : Radio) (cur : Chan) (s : State) : State :=
  let best := bestOf s r
  let x := { s.record r with lastBest := best.map fun b => (b, (s.chan b).load) }
  if x.holding && best ≠ some cur then s.setRecord r x
  else sustainAndAct r cur best (s.setRecord r { x with holding := false })

/-- R113: the pass's step for one radio. -/
def planRadio (r : Radio) (s : State) : State :=
  match (s.link r).chan with
  | none => s
  | some cur =>
    if (s.record r).inFlight.isSome || !gateServes (s.gate r) then s
    else if (s.chan cur).barredUntil.isSome then radarMove r s
    else planningStep r cur s

/-- R113: the planning pass, radio 0 first. -/
def planningPass (s : State) : State := planRadio .r1 (planRadio .r0 s)

/-! ## Mode, holding, host silence -/

/-- R109: every standing proposal is withdrawn. -/
def withdrawProposals (x : Pair PlanRecord) : Pair PlanRecord :=
  ⟨{ x.r0 with proposal := none }, { x.r1 with proposal := none }⟩

/-- R109, R128: the plan mode is set; a change to AUTO or to FIXED withdraws the standing proposals. -/
def setMode (m : PlanMode) (s : State) : State :=
  if m = s.cpl.mode then s
  else s.withCpl { s.cpl with
    mode := m
    records := if m = .advise then s.cpl.records else withdrawProposals s.cpl.records }

/-- R127: a return from silence sets HOLDING when the radio's hold-on-return is on. -/
def holdOnReturn (r : Radio) (s : State) : State :=
  s.setRecord r { s.record r with holding := (s.record r).holding || (s.record r).holdOnReturn }

/-- R129: the DEFAULTS action's order for one radio. -/
def defaultOrder (r : Radio) (s : State) : State :=
  match (s.record r).defaultChan, (s.link r).chan with
  | some d, some cur =>
    if gateServes (s.gate r) && (s.record r).inFlight.isNone && eligible s r d && d ≠ cur then
      let s' := switchOrder r cur d (s.record r).announce .defaults s
      s'.setRecord r { s'.record r with holding := false }
    else s
  | _, _ => s

/-- R128: the planner's action at the host-silence expiry. -/
def silenceAction (s : State) : State :=
  let s' := raise .hostSilent s.cpl.action.code s
  match s.cpl.action with
  | .keep => s'
  | .auto => setMode .auto s'
  | .defaults => setMode .fixed (defaultOrder .r1 (defaultOrder .r0 s'))

/-- R131: the planner's part of RESET MAP. -/
def resetPlans (s : State) : State :=
  s.withCpl { s.cpl with records := ⟨dropPlans s.cpl.records.r0, dropPlans s.cpl.records.r1⟩ }

/-! ## Host commands -/

/-- The five settings as a response carries them (R109). -/
def plannerSettingsBytes (x : Cpl) : List Byte :=
  b1 x.mode.code ++ b2 x.hysteresis ++ b1 x.sustainLimit ++ b2 x.minStay ++ b1 x.action.code

/-- SET PLANNER (R109). -/
def execSetPlanner (now : AT) (s : State) : Result :=
  handle 0x60 7 now s fun p s =>
    match planModeOf (arg p 0), actionOf (arg p 6) with
    | some m, some a =>
      let s1 := setMode m s
      let s2 := s1.withCpl { s1.cpl with
        hysteresis := clampNat 0 1000 (arg2 p 1)
        sustainLimit := clampNat 1 15 (arg1 p 3)
        minStay := clampNat 0 3600 (arg2 p 4)
        action := a }
      okay (plannerSettingsBytes s2.cpl) s2
    | _, _ => refuse .badArgument s

/-- SET RADIO (R110). -/
def execSetRadio (now : AT) (s : State) : Result :=
  handle 0x61 4 now s fun p s =>
    match radioOf (arg p 0), defaultChanOf (arg p 1), flagOf (arg p 2) with
    | some r, some d, some h =>
      let n := clampNat 1 15 (arg1 p 3)
      okay (bOpt 1 bChan d ++ bFlag h ++ b1 n)
        (s.setRecord r { s.record r with defaultChan := d, holdOnReturn := h, announce := n })
    | _, _, _ => refuse .badArgument s

/-- R120: the checks of SET CHANNEL after its arguments, and the order. -/
def hostSwitch (r : Radio) (c : Chan) (count : Nat) (s : State) : (Code × List Byte) × State :=
  match (s.link r).chan with
  | none => refuse .wrongState s
  | some cur =>
    if !gateServes (s.gate r) || (s.record r).inFlight.isSome then refuse .wrongState s
    else if !eligible s r c then refuse .notEligible s
    else if c = cur then refuse .badArgument s
    else
      let n := if count = 0 then (s.record r).announce else min 15 count
      let s' := switchOrder r cur c n .host s
      okay (bAT (orderDeadline s.now n)) (s'.setRecord r { s'.record r with holding := false })

/-- SET CHANNEL (R120). -/
def execSetChannel (now : AT) (s : State) : Result :=
  handle 0x62 3 now s fun p s =>
    match radioOf (arg p 0), chanOf (arg p 1) with
    | some r, some c => hostSwitch r c (arg1 p 2) s
    | _, _ => refuse .badArgument s

/-- ACCEPT PROPOSAL (R121). -/
def execAcceptProposal (now : AT) (s : State) : Result :=
  handle 0x63 1 now s fun p s =>
    match radioOf (arg p 0) with
    | none => refuse .badArgument s
    | some r =>
      match (s.record r).proposal with
      | none => refuse .wrongState s
      | some q => hostSwitch r q.chan 0 s

/-- CLEAR HOLD (R127). -/
def execClearHold (now : AT) (s : State) : Result :=
  handle 0x64 1 now s fun p s =>
    match radioOf (arg p 0) with
    | some r => okay [] (s.setRecord r { s.record r with holding := false })
    | none => refuse .badArgument s

def heardBytes (h : Heard) : List Byte := bAT h.instant ++ b4 h.second

/-- R130: one radio in the payload of READ PLANNER. -/
def planRecordBytes (s : State) (r : Radio) : List Byte :=
  let x := s.record r
  placeBytes (s.link r).chan ++ b1 (s.gate r).mode.code ++ b1 x.sustain ++ bOpt 1 bChan x.candidate
  ++ bOpt 3 (fun b : Chan × Nat => bChan b.1 ++ b2 b.2) x.lastBest
  ++ bOpt 7 (fun q : Proposal => bChan q.chan ++ b2 q.passRound.toNat ++ b2 q.loadCurrent ++ b2 q.loadProposed)
      x.proposal
  ++ bOpt 8 heardBytes x.lastSwitch
  ++ bOpt 8 (fun w : Switch => bChan w.target ++ b1 w.count ++ b1 w.source.code ++ bChan w.fromChan ++ bAT w.deadline)
      x.inFlight
  ++ bFlag x.holding ++ bOpt 1 bChan x.defaultChan ++ bFlag x.holdOnReturn ++ b1 x.announce

/-- READ PLANNER (R130). -/
def execReadPlanner (now : AT) (s : State) : Result :=
  handle 0x65 0 now s fun _ s =>
    okay (plannerSettingsBytes s.cpl ++ b2 s.omap.passRound.toNat ++ planRecordBytes s .r0 ++ planRecordBytes s .r1) s

/-! ## Timer row -/

/-- SWITCH_DEADLINE (R123): the deadline of a switch in flight passes and the switch fails. -/
def execSwitchDeadline (now : AT) (r : Radio) (s : State) : Result :=
  event now s fun s =>
    match (s.record r).inFlight with
    | none => s
    | some w =>
      if reached w.deadline s.now then
        raise .switchFailed (radioCode r) (s.setRecord r { s.record r with inFlight := none })
      else s

end Sys2Proof.Machine
end

