-- ==== Sys2Proof/Machine/Schedule.lean ====
section
/-! DEFINITION. The sensing schedule, SSC (chapter 1): plans and rounds, the life of a dwell, the arbiter, the sense FAULT,
round completions, the sense-line records, and the scheduler's commands and timer rows. -/

namespace Sys2Proof.Machine

/-! ## Orders and the arbiter (R10, R18, R19) -/

/-- What the arbiter chooses at a boundary or a retry. -/
inductive Choice
  | watch (t : TrackerId) (c : Chan)
  | reference (c : Chan) (rest : List Chan)
  | sweep (e : PlanEntry)
  | park
deriving DecidableEq, Repr

/-- R18: the watch channel of a span, (lo + hi) div 2. -/
def watchChan (o : Oven) : Chan := ⟨(o.lo.val + o.hi.val) / 2, by omega⟩

/-- R18: the watch choice for the lowest-numbered tracker whose watch is due. -/
def watchChoice (s : State) : Option Choice :=
  match allTrackers.find? (watchDue s) with
  | none => none
  | some t => (s.tracker t).oven.map fun o => .watch t (watchChan o)

/-- R18: rank 1 is passed over in a round with entries left when the last three orders were WATCH TUNEs (log entry 12). -/
def watchPassedOver (x : Ssc) : Bool := entriesLeft x && 3 ≤ x.watchRun

/-- R18: ranks 2 to 4. -/
def otherChoice (x : Ssc) : Choice :=
  match x.calQueue with
  | c :: rest => .reference c rest
  | [] =>
    if entriesLeft x then
      match x.active[x.position]? with
      | some e => .sweep e
      | none => .park
    else .park

/-- R18: the arbiter's choice. -/
def chooseOrder (s : State) : Choice :=
  match watchChoice s with
  | some w => if watchPassedOver s.ssc then otherChoice s.ssc else w
  | none => otherChoice s.ssc

/-- R10, R12: an order starts the close wait of a dwell that had reached its end. -/
def startCloseWait (now : AT) (e : Ended) : Ended :=
  match e.closeWait with
  | none => { e with closeWait := some (addUs now Config.closeWaitUs) }
  | some _ => e

/-- R17, R19: an order returns a parked line to RUNNING; a line in FAULT stays there until a READY. -/
def lineOnOrder : LineState → LineState
  | .fault r => .fault r
  | .running => .running
  | .parked => .running

/-- R10: a TUNE or REFERENCE is sent with the next dwell id and its dwell becomes the current dwell. -/
def orderDwell (d : Dwell) (watchRun : Nat) (x : SenseOrder) (s : State) : State :=
  s.withSsc { s.ssc with
    nextId := s.ssc.nextId + 1
    current := some ⟨d, .ordered s.now⟩
    ended := s.ssc.ended.map (startCloseWait s.now)
    line := lineOnOrder s.ssc.line
    watchRun
    sent := s.ssc.sent ++ [x] }

/-- R10, R18, R19: the choice's order is sent. -/
def sendOrder (choice : Choice) (s : State) : State :=
  let id := s.ssc.nextId
  match choice with
  | .watch t c => orderDwell ⟨.watch, id, c, Config.watchMs, some t, false⟩ (min 3 (s.ssc.watchRun + 1)) (.tune id c) s
  | .reference c rest =>
    orderDwell ⟨.reference, id, c, Config.referenceMs, none, rest.isEmpty⟩ 0 (.reference id c)
      (s.withSsc { s.ssc with calQueue := rest })
  | .sweep e => orderDwell ⟨.sweep, id, e.chan, e.dwellMs, none, false⟩ 0 (.tune id e.chan) s
  | .park =>
    s.withSsc { s.ssc with
      current := none
      ended := s.ssc.ended.map (startCloseWait s.now)
      line := .parked
      watchRun := 0
      sent := s.ssc.sent ++ [.park] }

/-! ## Rounds (R5 to R8) -/

/-- R5: a round starts at an instant. -/
def startRound (due : AT) (s : State) : State :=
  s.withSsc { s.ssc with phase := .running, roundStart := due, position := 0 }

/-- R5, R18: the next round starts if it is due and the active plan is not empty. -/
def startRoundIfDue (s : State) : State :=
  match s.ssc.phase with
  | .between _ due => if roundIsDue s.ssc s.now then startRound due s else s
  | .running => s
  | .stopped _ => s

/-- R5: a round whose due instant has already passed has started, though no boundary has come (DEDUCED, log entry 13). -/
def startRoundIfPassed (s : State) : State :=
  match s.ssc.phase with
  | .between _ due => if roundIsDue s.ssc s.now && passed due s.now then startRound due s else s
  | .running => s
  | .stopped _ => s

/-- R18: a dwell boundary is served. -/
def boundary (s : State) : State :=
  let s' := startRoundIfDue s
  sendOrder (chooseOrder s') s'

/-- R19: a parked front end for which work has become due meets a boundary. -/
def wakeIfParked (s : State) : State := if s.ssc.line = .parked ∧ workDue s = true then boundary s else s

/-- R1, R8: where the sweep stands after a plan of `plan` becomes active. -/
def phaseOnApply (now : AT) (plan : List PlanEntry) (phase : RoundPhase) : RoundPhase :=
  match plan, phase with
  | [], .stopped fires => .stopped fires
  | [], _ => .stopped (addUs now Config.emptyPlanUs)
  | _ :: _, .stopped _ => .running
  | _ :: _, phase => phase

/-- R8: whether applying a plan starts a round at once. -/
def startsAtOnce (plan : List PlanEntry) (phase : RoundPhase) : Bool :=
  match plan, phase with
  | _ :: _, .stopped _ => true
  | _, _ => false

/-- R1, R3, R8: the pending plan becomes the active plan. -/
def applyPlan (s : State) : State :=
  let plan := s.ssc.plan
  let once := startsAtOnce plan s.ssc.phase
  raise .planApplied plan.length (s.withSsc { s.ssc with
    active := plan
    plan := []
    armed := false
    phase := phaseOnApply s.now plan s.ssc.phase
    roundStart := if once then s.now else s.ssc.roundStart
    position := if once || plan = [] then 0 else s.ssc.position })

/-- R6, R9: the instant a round interval allows the next round, counted from the round's start. -/
def intervalEnd (x : Ssc) : AT := addUs x.roundStart (x.intervalMs * 1000)

/-- R6, steps 1 to 4: a round ends. -/
def endRound (s : State) : State :=
  let n := s.ssc.roundNumber + 1
  let due := later (intervalEnd s.ssc) s.now
  let late := s.ssc.intervalMs ≠ 0 && passed (intervalEnd s.ssc) s.now
  let s1 := s.withSsc { s.ssc with roundNumber := n, phase := .between s.now due }
  let s2 := if late then raise .roundLate (n.toNat % 256) s1 else s1
  if s2.ssc.armed then applyPlan s2 else s2

/-- R5, R6: an entry is visited; the round completion that follows, if the round has ended. -/
def visit (s : State) : State × Option (BitVec 16) :=
  let s1 := s.withSsc { s.ssc with position := s.ssc.position + 1 }
  if s1.ssc.phase = .running ∧ s1.ssc.active.length ≤ s1.ssc.position then
    (endRound s1, some (s.ssc.roundNumber + 1))
  else (s1, none)

/-- R7: a round completion is handed to the neighbour table, the map and the planner, in that order. -/
def completeRound (n : BitVec 16) (s : State) : State := planningPass (mapPass n (tableCompletion s))

/-- R7: the completion of a visit, if there is one. -/
def completeIf (n : Option (BitVec 16)) (s : State) : State :=
  match n with
  | some n => completeRound n s
  | none => s

/-! ## Closing a dwell (R13) -/

/-- R13, R7: a dwell is closed with a report or without: the hand-over or the calibration outcome, then the round
completion that waited for it. -/
def closeDwell (d : Dwell) (ready : AT) (rep : Option Report) (n : Option (BitVec 16)) (s : State) : State :=
  completeIf n
    (match d.kind with
    | .reference => calOutcome d (rep.map (·.rawRef)) s
    | .sweep => handOver d ready rep s
    | .watch => handOver d ready rep s)

/-- R13: the ended dwell is closed; after the close there is none. -/
def closeEnded (rep : Option Report) (s : State) : State :=
  match s.ssc.ended with
  | none => s
  | some e => closeDwell e.dwell e.ready rep e.completion (s.withSsc { s.ssc with ended := none })

/-! ## Sense-line records -/

/-- A sense record handled at `t`: while the line's bytes are not yet taken as headers, its bytes are discarded (R23). -/
def senseEvent (t : AT) (s : State) (body : State → State) : Result :=
  event t s fun s => if s.ssc.resync then s else body s

/-- R11, R17: a READY that opens a dwell clears a FAULT. -/
def clearFault (s : State) : State :=
  if inFault s.ssc then raise .senseFault 0 (s.withSsc { s.ssc with line := .running }) else s

/-- R11: the watched tracker's last watch start becomes the ready AT. -/
def noteWatch (d : Dwell) (t : AT) (x : Triple (Option AT)) : Triple (Option AT) :=
  match d.watchFor with
  | some k => x.set k (some t)
  | none => x

/-- R11: the current dwell `d` opens. -/
def openDwell (d : Dwell) (s : State) : State :=
  let s1 := s.withSsc { s.ssc with
    current := some ⟨d, .opened s.now none⟩
    timeouts := 0
    lastWatch := noteWatch d s.now s.ssc.lastWatch }
  closeEnded none (openTally d s.now (clearFault s1))

/-- R11: READY. -/
def readyRecord (id : Byte) (s : State) : State :=
  match s.ssc.current with
  | none => s
  | some ⟨d, .ordered _⟩ => if d.id = id then openDwell d s else s
  | some ⟨_, .opened _ _⟩ => s

/-- READY (R11). -/
def execReady (now : AT) (id : Byte) (s : State) : Result := senseEvent now s (readyRecord id)

/-- R14: the dwell that a BURST with this id belongs to, with its ready AT: the open current dwell or the ended dwell. -/
def burstDwell (x : Ssc) (id : Byte) : Option (Dwell × AT) :=
  match x.current, x.ended with
  | some ⟨d, .opened ready _⟩, e =>
    if d.id = id then some (d, ready)
    else match e with
      | some e => if e.dwell.id = id then some (e.dwell, e.ready) else none
      | none => none
  | _, some e => if e.dwell.id = id then some (e.dwell, e.ready) else none
  | _, none => none

/-- R14, R19: BURST: passed to the classifier for a SWEEP or WATCH dwell, and a seed may wake a parked front end. -/
def burstRecord (id : Byte) (offset duration : Nat) (raw : Byte) (cutStart cutEnd : Bool) (s : State) : State :=
  match burstDwell s.ssc id with
  | none => s
  | some (d, ready) =>
    if d.kind = .reference then s
    else wakeIfParked (takeBurst d ready offset duration raw cutStart cutEnd s)

/-- BURST (R14). -/
def execBurst (now : AT) (id : Byte) (offset : BitVec 24) (duration : BitVec 16) (raw : Byte) (cutStart cutEnd : Bool)
    (s : State) : Result :=
  senseEvent now s (burstRecord id offset.toNat duration.toNat raw cutStart cutEnd)

/-- R13: a CLOSE for the open current dwell is held; a second one is discarded. -/
def holdClose (id : Byte) (rep : Report) (s : State) : State :=
  match s.ssc.current with
  | some ⟨d, .opened ready none⟩ =>
    if d.id = id then s.withSsc { s.ssc with current := some ⟨d, .opened ready (some rep)⟩ } else s
  | some ⟨_, .opened _ (some _)⟩ => s
  | some ⟨_, .ordered _⟩ => s
  | none => s

/-- R13: CLOSE. -/
def closeRecord (id : Byte) (rep : Report) (s : State) : State :=
  match s.ssc.ended with
  | some e => if e.dwell.id = id then closeEnded (some rep) s else holdClose id rep s
  | none => holdClose id rep s

/-- CLOSE (R13). -/
def execClose (now : AT) (id rawFloor rawRef : Byte) (s : State) : Result :=
  senseEvent now s (closeRecord id ⟨rawFloor, rawRef⟩)

/-- SENSE_RECORD_DISCARD (R10): an unknown type or a wrong length; discarded without event. -/
def execSenseRecordDiscard (now : AT) (_type _len : Byte) (s : State) : Result := event now s id

/-- SENSE_TRUNCATION (R166): a record cut short on the sense line; discarded without event or count. -/
def execSenseTruncation (now : AT) (s : State) : Result := event now s id

/-- SENSE_RESYNC_CLEAR (R23): 1000 µs of idle line; the next byte is taken as a header. -/
def execSenseResyncClear (now : AT) (s : State) : Result :=
  event now s fun s => s.withSsc { s.ssc with resync := false }

/-! ## Timer rows of a dwell -/

/-- R12, R13: the open dwell `d` reaches its end: it becomes the ended dwell, or is closed with a held report (the order
inside: DEDUCED, log entry 21). -/
def endDwell (d : Dwell) (ready : AT) (held : Option Report) (s : State) : State :=
  let s1 := s.withSsc { s.ssc with current := none }
  let v := if d.kind = .sweep then visit s1 else (s1, none)
  match held with
  | some rep => boundary (closeDwell d ready (some rep) v.2 v.1)
  | none => boundary (v.1.withSsc { v.1.ssc with ended := some ⟨d, ready, none, v.2⟩ })

/-- DWELL_END (R12): the open dwell's length has run from its ready AT. -/
def execDwellEnd (now : AT) (s : State) : Result :=
  event now s fun s =>
    match s.ssc.current with
    | none => s
    | some ⟨_, .ordered _⟩ => s
    | some ⟨d, .opened ready held⟩ =>
      if reached (addUs ready (d.lengthMs * 1000)) s.now then endDwell d ready held s else s

/-- R43, R16: a running calibration run ends as BAD at a sense FAULT, and its queue is emptied. -/
def faultCalibration (s : State) : State :=
  let s' := s.withSsc { s.ssc with calQueue := [] }
  if s.bcl.cal.status = .running then endRunForFault s' else s'

/-- R16: the sense line enters FAULT. -/
def enterFault (s : State) : State :=
  faultCalibration (faultTrackers (raise .senseFault 1
    (s.withSsc { s.ssc with line := .fault (addUs s.now Config.retryUs) })))

/-- R15: what a tune timeout does for the skipped dwell's kind; the round completion that follows, if any, is handed on at
the timeout itself (R7). -/
def skipDwell (d : Dwell) (orderAT : AT) (s : State) : State :=
  match d.kind with
  | .sweep => completeIf (visit s).2 (visit s).1
  | .watch => s.withSsc { s.ssc with lastWatch := noteWatch d orderAT s.ssc.lastWatch }
  | .reference => calOutcome d none s

/-- R15 to R17: the order of dwell `d` times out. What the skipped dwell's kind calls for comes first, then FAULT: a reference
dwell's outcome marks its channel BAD before the FAULT ends the run. R43 allows either order (DESIGN CHOICE, log
entry 21). -/
def tuneTimedOut (d : Dwell) (orderAT : AT) (s : State) : State :=
  let s1 := s.withSsc { s.ssc with timeouts := min 3 (s.ssc.timeouts + 1), current := none }
  let s2 := skipDwell d orderAT s1
  if inFault s2.ssc then s2
  else if 3 ≤ s2.ssc.timeouts then enterFault s2
  else boundary s2

/-- TUNE_TIMEOUT (R15): no READY within 2000 µs of the order. -/
def execTuneTimeout (now : AT) (s : State) : Result :=
  event now s fun s =>
    match s.ssc.current with
    | none => s
    | some ⟨_, .opened _ _⟩ => s
    | some ⟨d, .ordered orderAT⟩ =>
      if reached (addUs orderAT Config.tuneTimeoutUs) s.now then tuneTimedOut d orderAT s else s

/-- CLOSE_WAIT_EXPIRY (R13): 2000 µs after the order that followed the dwell's end, it is closed without a report. -/
def execCloseWaitExpiry (now : AT) (s : State) : Result :=
  event now s fun s =>
    match s.ssc.ended with
    | none => s
    | some e =>
      match e.closeWait with
      | none => s
      | some t => if reached t s.now then closeEnded none s else s

/-- R17: a retry in FAULT: the arbiter is consulted; a dwell's TUNE is sent, PARK is not. -/
def retryInFault (s : State) : State :=
  let s1 := startRoundIfDue s
  let s2 := match chooseOrder s1 with
    | .park => s1
    | .watch t c => sendOrder (.watch t c) s1
    | .reference c rest => sendOrder (.reference c rest) s1
    | .sweep e => sendOrder (.sweep e) s1
  s2.withSsc { s2.ssc with line := .fault (addUs s.now Config.retryUs) }

/-- FAULT_RETRY (R17). -/
def execFaultRetry (now : AT) (s : State) : Result :=
  event now s fun s =>
    match s.ssc.line with
    | .fault retry => if reached retry s.now then retryInFault s else s
    | .running => s
    | .parked => s

/-- ROUND_DUE (R5, R19): the next round's due instant arrives: the round starts, and a parked front end meets a
boundary. -/
def execRoundDue (now : AT) (s : State) : Result :=
  event now s fun s => wakeIfParked (startRoundIfDue s)

/-- WATCH_DUE (R19, R20): a watch falls due while the front end is parked. -/
def execWatchDue (now : AT) (s : State) : Result :=
  event now s fun s => if allTrackers.any (watchDue s) then wakeIfParked s else s

/-- EMPTY_PLAN_TIMER (R8): the timer of an empty plan fires: the round number rises and a completion is handed on. -/
def execEmptyPlanTimer (now : AT) (s : State) : Result :=
  event now s fun s =>
    match s.ssc.phase with
    | .stopped fires =>
      if reached fires s.now then
        completeRound (s.ssc.roundNumber + 1) (s.withSsc { s.ssc with
          roundNumber := s.ssc.roundNumber + 1
          phase := .stopped (addUs fires Config.emptyPlanUs) })
      else s
    | .running => s
    | .between _ _ => s

/-! ## Host commands -/

/-- R2: the pending plan with an entry written at a position at most its length. -/
def writeEntry (position : Nat) (e : PlanEntry) (plan : List PlanEntry) : List PlanEntry :=
  if position < plan.length then plan.set position e else plan ++ [e]

/-- WRITE PLAN ENTRY (R2). -/
def execWritePlanEntry (now : AT) (s : State) : Result :=
  handle 0x10 3 now s fun p s =>
    if s.ssc.armed then refuse .busy s
    else match chanOf (arg p 1) with
      | none => refuse .badArgument s
      | some c =>
        if !(s.chan c).permitted then refuse .notPermitted s
        else if 31 < arg1 p 0 ∨ s.ssc.plan.length < arg1 p 0 then refuse .badArgument s
        else
          let d := clampNat 1 100 (arg1 p 2)
          okay (b1 d) (s.withSsc { s.ssc with plan := writeEntry (arg1 p 0) ⟨c, d⟩ s.ssc.plan })

/-- CLEAR PLAN (R3). -/
def execClearPlan (now : AT) (s : State) : Result :=
  handle 0x11 0 now s fun _ s =>
    if s.ssc.armed then refuse .busy s else okay [] (s.withSsc { s.ssc with plan := [] })

/-- R3: the pending plan is committed: applied at once between rounds and while no round runs, else left armed. -/
def commitPlan (s : State) : State :=
  let s1 := startRoundIfPassed s
  if s1.ssc.armed then s1
  else
    let s2 := s1.withSsc { s1.ssc with armed := true }
    if s2.ssc.phase = .running then s2 else wakeIfParked (applyPlan s2)

/-- COMMIT PLAN (R3). -/
def execCommitPlan (now : AT) (s : State) : Result :=
  handle 0x12 0 now s fun _ s => okay [] (commitPlan s)

/-- R4: the payload of READ PLAN. -/
def planBytes (plan : List PlanEntry) (armed : Bool) (start count : Nat) : List Byte :=
  b1 plan.length ++ bFlag armed
  ++ bRun (fun e : PlanEntry => bChan e.chan ++ b1 e.dwellMs) ((plan.drop start).take count)

/-- READ PLAN (R4). -/
def execReadPlan (now : AT) (s : State) : Result :=
  handle 0x13 3 now s fun p s =>
    if arg1 p 0 ≤ 1 ∧ arg1 p 1 ≤ 31 ∧ 1 ≤ arg1 p 2 ∧ arg1 p 2 ≤ 8 then
      okay (planBytes (if arg1 p 0 = 0 then s.ssc.active else s.ssc.plan) s.ssc.armed (arg1 p 1) (arg1 p 2)) s
    else refuse .badArgument s

/-- R9: the round interval that is stored. -/
def storedInterval (ms : Nat) : Nat := min 30000 ms / 5 * 5

/-- R9: between rounds, the next due instant follows a new interval (a past one: DEDUCED, log entry 14). -/
def recomputeDue (x : Ssc) : RoundPhase :=
  match x.phase with
  | .between ended _ => .between ended (later (intervalEnd x) ended)
  | .running => .running
  | .stopped fires => .stopped fires

/-- R9: a round interval is set. -/
def setInterval (ms : Nat) (s : State) : State :=
  let s1 := startRoundIfPassed s
  let s2 := s1.withSsc { s1.ssc with intervalMs := ms }
  wakeIfParked (s2.withSsc { s2.ssc with phase := recomputeDue s2.ssc })

/-- SET ROUND INTERVAL (R9). -/
def execSetRoundInterval (now : AT) (s : State) : Result :=
  handle 0x14 2 now s fun p s => okay (b2 (storedInterval (arg2 p 0))) (setInterval (storedInterval (arg2 p 0)) s)

/-- R20: the watch interval that is stored. -/
def storedWatch (ms : Nat) : Nat := clampNat 100 5000 ms / 100 * 100

/-- SET WATCH (R20). -/
def execSetWatch (now : AT) (s : State) : Result :=
  handle 0x15 2 now s fun p s =>
    let w := storedWatch (arg2 p 0)
    okay (b2 w) (wakeIfParked (s.withSsc { s.ssc with watchMs := w }))

/-- The next round's due instant, between rounds (R22). While the active plan is empty, which R3 counts as between rounds, it
is absent: no round can come due, and the due instant of the last round end is not kept (DESIGN CHOICE, log entry 30). -/
def nextDue (x : Ssc) : Option AT :=
  match x.phase with
  | .between _ due => some due
  | .running => none
  | .stopped _ => none

/-- The ready AT of a dwell that is open (R22). -/
def readyOf : Condition → Option AT
  | .ordered _ => none
  | .opened ready _ => some ready

/-- R22: the payload of READ SCHEDULE. -/
def scheduleBytes (x : Ssc) : List Byte :=
  b1 x.line.code ++ b1 x.timeouts ++ b2 x.roundNumber.toNat ++ bAT x.roundStart ++ bOpt 4 bAT (nextDue x)
  ++ b1 x.position ++ b1 x.active.length ++ b1 x.plan.length ++ bFlag x.armed ++ b2 x.intervalMs ++ b2 x.watchMs
  ++ bOpt 9 (fun c : Current => b1 c.dwell.kind.code ++ [c.dwell.id] ++ bChan c.dwell.chan
      ++ bOpt 4 bAT (readyOf c.cond) ++ b1 c.dwell.lengthMs) x.current
  ++ bOpt 1 (fun e : Ended => [e.dwell.id]) x.ended
  ++ b1 x.calQueue.length
  ++ bOpt 4 bAT x.lastWatch.t0 ++ bOpt 4 bAT x.lastWatch.t1 ++ bOpt 4 bAT x.lastWatch.t2

/-- READ SCHEDULE (R22). -/
def execReadSchedule (now : AT) (s : State) : Result :=
  handle 0x16 0 now s fun _ s => okay (scheduleBytes (startRoundIfPassed s).ssc) (startRoundIfPassed s)

end Sys2Proof.Machine
end

