-- ==== Sys2Proof/Machine/Calibration.lean ====
section
/-! DEFINITION. The commands that start a calibration run (R39, R40) and the queue's hand-over to SSC (R21). -/

namespace Sys2Proof.Machine

/-- The masked channels in increasing order. -/
def maskedChans (mask : BitVec 40) : List Chan := allChans.filter (inMask mask)

/-- R39: the queue of a run: every masked index for MEASURE, the lowest of each band for QUICK. -/
def runQueue (mode : CalMode) (mask : BitVec 40) : List Chan :=
  match mode with
  | .measure => maskedChans mask
  | .quick =>
    ((maskedChans mask).find? fun c => bandOf c = .ghz24).toList
      ++ ((maskedChans mask).find? fun c => bandOf c = .ghz5).toList
  | .revert => []

/-- R39: a mask names an index, and none above 37. -/
def maskOk (mask : BitVec 40) : Bool := mask ≠ 0 && mask.toNat < 2 ^ 38

/-- R40: a REVERT run, completed at the command. -/
def revertRun (mask : BitVec 40) (s : State) : State :=
  let s1 := s.withOmap { s.omap with
    channels := chanTable fun c => if inMask mask c then { s.chan c with correction := 0 } else s.chan c }
  endRun .done (s1.withBcl { s1.bcl with
    cal := { status := .done, mode := some .revert, mask, remaining := 0, runBad := false } })

/-- R39, R21: a MEASURE or QUICK run starts and its queue is handed to SSC; in FAULT SSC empties the queue at once and the
run ends BAD (R43), and a parked front end is woken (R19). -/
def startRun (mode : CalMode) (mask : BitVec 40) (s : State) : State :=
  let queue := runQueue mode mask
  let s1 := s.withBcl { s.bcl with
    cal := { status := .running, mode := some mode, mask, remaining := queue.length, runBad := false } }
  if inFault s1.ssc then faultCalibration s1 else wakeIfParked (s1.withSsc { s1.ssc with calQueue := queue })

/-- R39: the checks of CALIBRATE and the run. -/
def calibrateWith (p : List Byte) (s : State) : (Code × List Byte) × State :=
  if s.bcl.cal.status = .running then refuse .busy s
  else match calModeOf (arg p 5) with
    | none => refuse .badArgument s
    | some mode =>
      if maskOk (arg5 p 0) then
        match mode with
        | .revert => okay [] (revertRun (arg5 p 0) s)
        | .measure => okay [] (startRun .measure (arg5 p 0) s)
        | .quick => okay [] (startRun .quick (arg5 p 0) s)
      else refuse .badArgument s

/-- CALIBRATE (R39): every frame with the command's code. -/
def execCalibrate (now : AT) (s : State) : Result := handle 0x20 6 now s calibrateWith

/-- CALIBRATE_REVERT (R40): the frames of CALIBRATE whose mode is REVERT; with another mode in hand the row does not
arise. -/
def execCalibrateRevert (now : AT) (s : State) : Result :=
  if s.host.inHand.any fun c => c.payload.length < 6 || calModeOf (arg c.payload 5) = some .revert then
    handle 0x20 6 now s calibrateWith
  else event now s id

end Sys2Proof.Machine
end

