-- ==== Sys2Proof/Machine/AirGate.lean ====
section
/-! DEFINITION. The airtime gates, AGT (chapter 7): the answer to an airtime request, grants and their lists, the close of a
grant, gate modes, and the gate's commands and timer rows. Instants of one request are integers counted from its earliest
start t0 (R140). -/

namespace Sys2Proof.Machine

/-! ## The request (R138) -/

/-- R138: a request with its fields in range; `t0` is its earliest start (R140). -/
structure Request where
  tag : Byte
  length : Nat
  minLength : Nat
  maxWait : Nat
  cls : ReqClass
  t0 : AT
deriving DecidableEq, Repr

/-- R138, R140: a request's fields are brought into range. -/
def clampRequest (t0 : AT) (tag : Byte) (len minLen maxWait : Nat) (cls : Byte) : Request :=
  let n := clampNat 32 8000 len
  { tag, length := n, minLength := if minLen = 0 then 0 else clampNat 32 n minLen, maxWait, cls := classOf cls, t0 }

/-! ## The blocking set (R140 to R142) -/

/-- R65, R141: the guarded windows of a tracker that can overlap [0, reach], counted from an instant at which its anchor
lies at `a`: window k for k from the last one that ends at or before 0 to the last one that starts at or before `reach`. -/
def windowsFrom (a period width g reach : Int) : List (Int × Int) :=
  let k0 := (-(a + width + g)) / period
  let n := ((reach + g - a) / period - k0).toNat + 1
  (List.range n).map fun i : Nat =>
    (a + (k0 + (i : Int)) * period - g, a + (k0 + (i : Int)) * period + width + g)

/-- R141: a tracker contributes windows to a request for channel `c` when it is protecting for the class and covers `c`. -/
def contributes (s : State) (cls : ReqClass) (c : Chan) (t : TrackerId) : Option Oven :=
  match (s.tracker t).oven with
  | none => none
  | some o => if protecting s.otk.settings.policy cls o && covers o c then some o else none

/-- R141: the ovens whose windows a request for channel `c` avoids. No span reaches 5 GHz (R47). -/
def shapingOvens (s : State) (cls : ReqClass) (c : Chan) : List Oven :=
  match bandOf c with
  | .ghz24 => allTrackers.filterMap (contributes s cls c)
  | .ghz5 => []

/-- R141: one oven's windows for a request. -/
def ovenWindows (set : TrackSettings) (q : Request) (o : Oven) : List (Int × Int) :=
  windowsFrom (tdiff o.anchor q.t0) o.period o.width (classGuard set q.cls o) (q.maxWait + q.length)

/-- The end of a grant's interval. -/
def grantEnd (g : Grant) : AT := addUs g.start g.length

/-- R142: the exclusion interval of a request of radio `r`. -/
def exclusionInterval (s : State) (r : Radio) (t0 : AT) : List (Int × Int) :=
  if exclusionApplies s r then
    match (s.gate (otherRadio r)).slot with
    | none => []
    | some g => if 0 < tdiff (grantEnd g) t0 then [spanFrom t0 g.start (grantEnd g)] else []
  else []

/-- R140: the blocking set of a request of radio `r` on channel `c`. -/
def blockingSet (s : State) (r : Radio) (c : Chan) (q : Request) : List (Int × Int) :=
  (shapingOvens s q.cls c).flatMap (ovenWindows s.otk.settings q) ++ exclusionInterval s r q.t0

/-! ## The scans (R143, R144) -/

/-- The latest end among the blocking intervals that overlap [at, at + length), if one does. -/
def latestEnd (blocks : List (Int × Int)) (start : Int) (length : Nat) : Option Int :=
  ((blocks.filter fun i => overlaps i (start, start + length)).map (·.2)).max?

/-- R143: scan A from `start`; the start and whether it succeeds. Each pass moves past one blocking interval at least, so
`fuel` above the number of intervals is never used up. -/
def scanA (blocks : List (Int × Int)) (length maxWait : Nat) : Nat → Int → Int × Bool
  | 0, start => (start, false)
  | fuel + 1, start =>
    if (maxWait : Int) < start then (start, false)
    else match latestEnd blocks start length with
      | none => (start, true)
      | some e => scanA blocks length maxWait fuel e

/-- R144: the candidates of scan B in increasing order. -/
def shortCandidates (blocks : List (Int × Int)) (maxWait : Nat) : List Int :=
  ((0 : Int) :: (blocks.map (·.2)).filter fun e => decide (0 < e ∧ e ≤ maxWait)).foldr insertInt []

/-- R144: the free run of a candidate, cut to the request's length; absent when it lies within a blocking interval. -/
def freeRun (blocks : List (Int × Int)) (length : Nat) (c : Int) : Option Nat :=
  if blocks.any fun i => decide (i.1 ≤ c ∧ c < i.2) then none
  else match ((blocks.map (·.1)).filter fun b => decide (c ≤ b)).min? with
    | none => some length
    | some b => some (min length (b - c).toNat)

/-- R144: scan B: the first candidate whose free run reaches the minimum, with the length given. -/
def scanB (blocks : List (Int × Int)) (length minLength : Nat) : List Int → Option (Int × Nat)
  | [] => none
  | c :: rest =>
    match freeRun blocks length c with
    | some n => if minLength ≤ n then some (c, n) else scanB blocks length minLength rest
    | none => scanB blocks length minLength rest

/-! ## The answer (R139, R145, R147) -/

/-- R145: the gap between successive windows of one oven. -/
def ovenGap (set : TrackSettings) (cls : ReqClass) (o : Oven) : Nat := o.period - o.width - 2 * classGuard set cls o

/-- R145: the bound; absent when unlimited. -/
def boundOf (set : TrackSettings) (cls : ReqClass) (ovens : List Oven) : Option Nat :=
  (ovens.map (ovenGap set cls)).min?

/-- The answer to a request. -/
inductive Answer
  | grant (wait length : Nat)
  | short (wait length : Nat)
  | wait (retryAfter : Nat)
  | tooLong (bound : Nat)
deriving DecidableEq, Repr

/-- R145: REFUSE or WAIT. -/
def noRoom (bound : Option Nat) (length : Nat) (sA : Int) : Answer :=
  match bound with
  | some b => if b < length then .tooLong b else .wait (min 65535 sA.toNat)
  | none => .wait (min 65535 sA.toNat)

/-- R143 to R145: the computed answer to a request that meets `blocks`, where the bound is `bound`. -/
def answerOf (blocks : List (Int × Int)) (bound : Option Nat) (q : Request) : Answer :=
  let a := scanA blocks q.length q.maxWait (blocks.length + 1) 0
  if a.2 then .grant a.1.toNat q.length
  else if q.minLength = 0 then noRoom bound q.length a.1
  else match scanB blocks q.length q.minLength (shortCandidates blocks q.maxWait) with
    | some x => .short x.1.toNat x.2
    | none => noRoom bound q.length a.1

/-! ## Recent-grant lists (R136) -/

/-- R136: an entry is placed in start order, after those of equal start. -/
def placeEntry (e : GrantEntry) : List GrantEntry → List GrantEntry
  | [] => [e]
  | x :: rest => if 0 < tdiff x.start e.start then e :: x :: rest else x :: placeEntry e rest

/-- R136, R137: the entry of radio `r`'s outstanding grant has left its list. -/
def unlinkSlot (r : Radio) (s : State) : State :=
  s.setGate r { s.gate r with slot := (s.gate r).slot.map fun g => { g with listEntry := false } }

/-- R136: the cap removes an entry; an outstanding grant's entry becomes absent in its slot. -/
def unlinkRemoved (x : GrantEntry) (s : State) : State := if x.live then unlinkSlot x.radio s else s

/-- R136: an entry is made in the list of a band; a full list loses its first entry before. -/
def makeGrantEntry (b : Band) (e : GrantEntry) (s : State) : State :=
  match s.recent b with
  | [] => s.setRecent b [e]
  | x :: rest =>
    if Config.listSize ≤ (s.recent b).length then unlinkRemoved x (s.setRecent b (placeEntry e rest))
    else s.setRecent b (placeEntry e (s.recent b))

/-- R146: a GRANT or SHORT is issued: the slot, the list entry, the record. -/
def issue (r : Radio) (b : Band) (q : Request) (w n : Nat) (short : Bool) (s : State) : State :=
  let start := addUs q.t0 w
  let g : Grant :=
    { tag := q.tag, cls := q.cls, start, length := n, short, expiry := addUs start (n + Config.expiryUs)
      listEntry := true }
  let s1 := makeGrantEntry b ⟨r, start, addUs start n, true⟩ s
  sendRadio r (if short then .short q.tag w n else .grant q.tag w n)
    (s1.setGate r { s1.gate r with slot := some g })

/-- R140 to R147: a request that passed the checks is computed and answered. -/
def computeRequest (r : Radio) (c : Chan) (q : Request) (s : State) : State :=
  match answerOf (blockingSet s r c q) (boundOf s.otk.settings q.cls (shapingOvens s q.cls c)) q with
  | .grant w n => issue r (bandOf c) q w n false s
  | .short w n => issue r (bandOf c) q w n true s
  | .wait t => sendRadio r (.wait q.tag t) s
  | .tooLong b => sendRadio r (.refuse q.tag .tooLong b) s

/-- The host mode a gate answers by; in SAFE, which no request meets (R139), the mode that will be restored. -/
def answerMode (g : Gate) : HostMode :=
  match g.mode with
  | .host m => m
  | .safe m => m

/-- R139: the checks of a request, and its answer. -/
def airRequest (r : Radio) (tag : Byte) (len minLen maxWait : Nat) (cls : Byte) (s : State) : State :=
  match (s.link r).chan with
  | none => sendRadio r (.refuse tag .unknown 0) s
  | some c =>
    match answerMode (s.gate r) with
    | .gateOff => sendRadio r (.refuse tag .off 0) s
    | .gateBarred => sendRadio r (.refuse tag .barred 0) s
    | .gateHeld => sendRadio r (.wait tag Config.heldRetryUs) s
    | .gateOpen =>
      if (s.gate r).slot.isSome then sendRadio r (.refuse tag .busy 0) s
      else computeRequest r c (clampRequest (addUs s.now (s.gate r).latency) tag len minLen maxWait cls) s

/-! ## Closing a grant (R151 to R153) -/

/-- R151: radio `r`'s outstanding grant's entry ends at `stop`; the grant is outstanding no longer. -/
def closeEntry (r : Radio) (stop : Option AT) (e : GrantEntry) : GrantEntry :=
  if e.live && e.radio = r then { e with stop := stop.getD e.stop, live := false } else e

/-- R151, R153: the grant in radio `r`'s slot is closed; its entry ends at `stop`, or keeps its end. -/
def closeGrant (r : Radio) (stop : Option AT) (s : State) : State :=
  let s1 := s.withAgt { s.agt with
    recent24 := s.agt.recent24.map (closeEntry r stop)
    recent5 := s.agt.recent5.map (closeEntry r stop) }
  s1.setGate r { s1.gate r with slot := none }

/-- R151, R152: AIR END: the grant with the tag is closed, or the end is stray. -/
def airEnd (r : Radio) (tag : Byte) (used : Nat) (s : State) : State :=
  match (s.gate r).slot with
  | none => raise .strayEnd (radioCode r) s
  | some g =>
    if g.tag = tag then closeGrant r (some (addUs g.start (min used g.length))) s
    else raise .strayEnd (radioCode r) s

/-! ## Gate modes (R156 to R159) -/

/-- R156, R157: SET GATE on a gate. -/
def setGateMode (r : Radio) (m : HostMode) (s : State) : State :=
  match (s.gate r).mode with
  | .safe _ => s.setGate r { s.gate r with mode := .safe m }
  | .host old =>
    if old = m then s
    else sendRadio r (.gateNotice m) (s.setGate r { s.gate r with mode := .host m })

/-- R158: the gate enters SAFE. -/
def enterSafe (r : Radio) (s : State) : State :=
  s.setGate r { s.gate r with mode := .safe (answerMode (s.gate r)) }

/-- R159: the gate returns from SAFE with GATE NOTICE. -/
def leaveSafe (r : Radio) (s : State) : State :=
  let m := answerMode (s.gate r)
  sendRadio r (.gateNotice m) (s.setGate r { s.gate r with mode := .host m })

/-! ## Host commands -/

/-- SET GATE (R156). -/
def execSetGate (now : AT) (s : State) : Result :=
  handle 0x70 2 now s fun p s =>
    match radioOf (arg p 0), hostModeOf (arg p 1) with
    | some r, some m => okay [] (setGateMode r m s)
    | _, _ => refuse .badArgument s

/-- SET EXCLUSION (R160). -/
def execSetExclusion (now : AT) (s : State) : Result :=
  handle 0x71 1 now s fun p s =>
    match flagOf (arg p 0) with
    | some f => okay (bFlag f) (s.withAgt { s.agt with exclusion := f })
    | none => refuse .badArgument s

/-- SET LATENCY (R135). -/
def execSetLatency (now : AT) (s : State) : Result :=
  handle 0x72 3 now s fun p s =>
    match radioOf (arg p 0) with
    | some r =>
      let n := clampNat 0 200 (arg2 p 1)
      okay (b2 n) (s.setGate r { s.gate r with latency := n })
    | none => refuse .badArgument s

/-- The mode before SAFE (R133). -/
def modeBefore : GateState → Option HostMode
  | .host _ => none
  | .safe m => some m

/-- R161: a grant in the payload of READ GATE. -/
def grantBytes (g : Grant) : List Byte :=
  [g.tag] ++ b1 g.cls.code ++ bAT g.start ++ b2 g.length ++ bFlag g.short ++ bAT g.expiry ++ bFlag g.listEntry

/-- R161: the payload of READ GATE. -/
def gateBytes (s : State) (r : Radio) : List Byte :=
  b1 (s.gate r).mode.code ++ bOpt 1 (fun m : HostMode => b1 m.code) (modeBefore (s.gate r).mode)
  ++ b2 (s.gate r).latency ++ bOpt 14 grantBytes (s.gate r).slot
  ++ bFlag s.agt.exclusion ++ bFlag (exclusionApplies s r) ++ placeBytes (s.link r).chan

/-- READ GATE (R161). -/
def execReadGate (now : AT) (s : State) : Result :=
  handle 0x73 1 now s fun p s =>
    match radioOf (arg p 0) with
    | some r => okay (gateBytes s r) s
    | none => refuse .badArgument s

/-- R162: an entry in the payload of READ GRANTS. -/
def grantEntryBytes (e : GrantEntry) : List Byte := b1 (radioCode e.radio) ++ bAT e.start ++ bAT e.stop

/-- READ GRANTS (R162). -/
def execReadGrants (now : AT) (s : State) : Result :=
  handle 0x74 1 now s fun p s =>
    match bandOfCode (arg p 0) with
    | some b => okay (bRun grantEntryBytes (s.recent b)) s
    | none => refuse .badArgument s

/-! ## Timer rows -/

/-- GRANT_EXPIRY (R153): AT reaches the outstanding grant's expiry. -/
def execGrantExpiry (now : AT) (r : Radio) (s : State) : Result :=
  event now s fun s =>
    match (s.gate r).slot with
    | none => s
    | some g =>
      if reached g.expiry s.now then raise .grantExpired (radioCode r) (closeGrant r none s) else s

/-- R137: an entry's end lies more than 200,000 µs in the past. -/
def aged (now : AT) (e : GrantEntry) : Bool := decide ((Config.entryAgeUs : Int) < tdiff now e.stop)

/-- GRANT_ENTRY_AGE_OUT (R137): the aged entries of a band leave its list. -/
def execGrantEntryAgeOut (now : AT) (b : Band) (s : State) : Result :=
  event now s fun s =>
    ((s.recent b).filter (aged s.now)).foldr unlinkRemoved
      (s.setRecent b ((s.recent b).filter fun e => !aged s.now e))

end Sys2Proof.Machine
end

