-- ==== Sys2Proof/Machine/Links.lean ====
section
/-! DEFINITION. The radio link units (chapter 8): framing and link errors, valid records, radio state, silence and the return
from it, and the units' commands and timer rows. -/

namespace Sys2Proof.Machine

/-! ## Link errors and valid records -/

/-- R166, R167: a link error is counted and raised. -/
def linkError (r : Radio) (k : LinkErrorKind) (s : State) : State :=
  raise .linkError (radioCode r) (s.setLink r { s.link r with
    errors := satInc Config.countMax (s.link r).errors
    lastError := some (k, s.now) })

/-- R167, R176: a valid record restarts the silence timer, sets the last valid record and counts as taken. -/
def noteValid (now : AT) (x : Link) : Link :=
  { x with
    timer := some (addUs now (x.limitMs * 1000))
    lastValid := some now
    taken := satInc Config.countMax x.taken }

/-- R178: the first valid record from a silent radio ends the silence: RADIO_BACK, the gate's return with GATE NOTICE,
HOLDING. -/
def returnFromSilence (r : Radio) (s : State) : State :=
  holdOnReturn r (leaveSafe r (raise .radioBack (radioCode r)
    (s.setLink r { noteValid s.now (s.link r) with silent := false })))

/-- R167, R176, R178: what every valid record does before its fields are checked. -/
def takeValid (r : Radio) (s : State) : State :=
  if (s.link r).silent then returnFromSilence r s else s.setLink r (noteValid s.now (s.link r))

/-- A valid record of radio `r` handled at `t`: bytes that arrive under resync are dropped (R183). -/
def radioEvent (t : AT) (r : Radio) (s : State) (body : State → State) : Result :=
  event t s fun s => if (s.link r).resync then s else body (takeValid r s)

/-- R167: a record whose channel field is checked. -/
def withChan (r : Radio) (b : Byte) (s : State) (body : Chan → State → State) : State :=
  match chanOf b with
  | some c => body c s
  | none => linkError r .badChannel s

/-! ## Records (R170 to R175) -/

/-- R170: the first STATUS makes the radio KNOWN; GATE NOTICE, unless this handling has already sent one. -/
def becomeKnown (r : Radio) (c : Chan) (noticed : Bool) (s : State) : State :=
  let s' := placeRadio r c s
  if noticed then s' else sendRadio r (.gateNotice (answerMode (s'.gate r))) s'

/-- R170, R171: a STATUS whose fields pass. -/
def statusTaken (r : Radio) (c : Chan) (noticed : Bool) (s : State) : State :=
  match (s.link r).chan with
  | none => becomeKnown r c noticed s
  | some cur =>
    if c = cur then s
    else match (s.record r).inFlight with
      | some w => closeSwitch r w c s
      | none => changeOutside r c s

/-- R167: the field checks of STATUS in the table's order. -/
def statusChecked (r : Radio) (band chan : Byte) (noticed : Bool) (s : State) : State :=
  withChan r chan s fun c s =>
    if bandOfCode band = some (bandOf c) then statusTaken r c noticed s else linkError r .badBand s

/-- STATUS (R170, R171). -/
def execStatus (now : AT) (r : Radio) (band chan : Byte) (s : State) : Result :=
  radioEvent now r s (statusChecked r band chan (s.link r).silent)

/-- AIR REQUEST (R173, R139). -/
def execAirRequest (now : AT) (r : Radio) (tag : Byte) (len minLen maxWait : BitVec 16) (cls : Byte) (s : State) :
    Result :=
  radioEvent now r s (airRequest r tag len.toNat minLen.toNat maxWait.toNat cls)

/-- AIR END (R173, R151). -/
def execAirEnd (now : AT) (r : Radio) (tag : Byte) (used : BitVec 16) (s : State) : Result :=
  radioEvent now r s (airEnd r tag used.toNat)

/-- OVERHEARD (R174, R95). -/
def execOverheard (now : AT) (r : Radio) (network : BitVec 32) (chan raw : Byte) (airtime : BitVec 32) (s : State) :
    Result :=
  radioEvent now r s fun s => withChan r chan s fun c s => overheardReport r network c raw airtime s

/-- RADAR (R175, R80, R125). -/
def execRadar (now : AT) (r : Radio) (chan : Byte) (s : State) : Result :=
  radioEvent now r s fun s => withChan r chan s fun c s => plannerRadar c (barChannel c s)

/-- R172, R122, R124: a SWITCHED whose channel passes. -/
def switchedTaken (r : Radio) (c : Chan) (s : State) : State :=
  match (s.link r).chan with
  | none => s
  | some cur =>
    match (s.record r).inFlight with
    | some w => closeSwitch r w c s
    | none => if c = cur then s else changeOutside r c s

/-- SWITCHED (R172). -/
def execSwitched (now : AT) (r : Radio) (chan : Byte) (s : State) : Result :=
  radioEvent now r s fun s => withChan r chan s (switchedTaken r)

/-! ## Framing -/

/-- R166: the framing checks, in the table's order: the error of a record with this type and length, if it has one. -/
def framingError (type len : Byte) : Option LinkErrorKind :=
  match radioRecordLength type with
  | none => some .unknownType
  | some n => if len.toNat = n then none else some .wrongLength

/-- LINK_FRAMING_ERROR (R166): the last byte of a record that fails a framing check. -/
def execLinkFramingError (now : AT) (r : Radio) (type len : Byte) (s : State) : Result :=
  event now s fun s =>
    if (s.link r).resync then s
    else match framingError type len with
      | some k => linkError r k s
      | none => s

/-- LINK_TRUNCATION (R166): 1000 µs without the next byte of a record. -/
def execLinkTruncation (now : AT) (r : Radio) (s : State) : Result :=
  event now s fun s => if (s.link r).resync then s else linkError r .truncated s

/-- LINK_RESYNC_CLEAR (R183): 1000 µs of idle link clear resync. -/
def execLinkResyncClear (now : AT) (r : Radio) (s : State) : Result :=
  event now s fun s => s.setLink r { s.link r with resync := false }

/-! ## Silence (R176 to R179) -/

/-- R177: the silence timer expires. -/
def silenceExpired (r : Radio) (s : State) : State :=
  raise .radioSilent (radioCode r)
    (enterSafe r (s.setLink r { s.link r with timer := none, silent := true }))

/-- SILENCE_TIMER_EXPIRY (R177). -/
def execSilenceTimerExpiry (now : AT) (r : Radio) (s : State) : Result :=
  event now s fun s =>
    match (s.link r).timer with
    | none => s
    | some e => if reached e s.now then silenceExpired r s else s

/-- R179: the timer of a link under a new limit: a running one runs from the last valid record. -/
def retimed (x : Link) (ms : Nat) : Option AT :=
  match x.timer, x.lastValid with
  | some _, some v => some (addUs v (ms * 1000))
  | some e, none => some e
  | none, _ => none

/-- R179: a silence limit is set; a running timer whose new expiry has already passed expires at the command. -/
def setSilenceLimit (r : Radio) (ms : Nat) (s : State) : State :=
  let t := retimed (s.link r) ms
  let s' := s.setLink r { s.link r with limitMs := ms, timer := t }
  match t with
  | some e => if passed e s.now then silenceExpired r s' else s'
  | none => s'

/-- SET SILENCE (R179). -/
def execSetSilence (now : AT) (s : State) : Result :=
  handle 0x78 3 now s fun p s =>
    match radioOf (arg p 0) with
    | some r =>
      let ms := clampNat 100 5000 (arg2 p 1)
      okay (b2 ms) (setSilenceLimit r ms s)
    | none => refuse .badArgument s

/-- R181: the payload of READ LINK. -/
def linkBytes (x : Link) : List Byte :=
  placeBytes x.chan ++ b2 x.limitMs ++ bOpt 4 bAT x.timer ++ bFlag x.silent ++ bOpt 4 bAT x.lastValid
  ++ b2 x.taken ++ b2 x.errors
  ++ bOpt 5 (fun e : LinkErrorKind × AT => b1 e.1.code ++ bAT e.2) x.lastError ++ bFlag x.resync

/-- READ LINK (R181). -/
def execReadLink (now : AT) (s : State) : Result :=
  handle 0x79 1 now s fun p s =>
    match radioOf (arg p 0) with
    | some r => okay (linkBytes (s.link r)) s
    | none => refuse .badArgument s

end Sys2Proof.Machine
end

