-- ==== Sys2Proof/Machine/HostPort.lean ====
section
/-! DEFINITION. The host port unit and the resets (chapter 9), and the event unit's commands (chapter 10). -/

namespace Sys2Proof.Machine

/-! ## Resets (R197 to R202) -/

/-- R202: the part begins work from the start values at AT 0: the first boundary sends the first TUNE. -/
def beginWork (cause : StartCause) (dom mains : BitVec 2) (nextId : Byte) (correction : Chan → Int)
    (shiftedOut : List Byte) (pending : List Instr) : State :=
  boundary (State.start cause dom mains nextId correction shiftedOut pending)

/-- R198: the reset instant of RESET PART: the straps, the corrections and the dwell id counter are kept. So is what a read
transaction under way shifts out, which stood at its first byte (R189; DEDUCED, log entry 8). -/
def resetPartNow (s : State) : State :=
  let t := beginWork .hostReset s.host.dom s.host.mains s.ssc.nextId (fun c => (s.chan c).correction) s.host.shiftedOut
    s.pending
  t.withHost { t.host with reading := s.host.reading }

/-- R201: the cause of the reset period that a fall of RESET, or power, begins or continues (DEDUCED, log entry 28). -/
def resetCause (powerOn : Bool) (p : Phase) : StartCause :=
  if powerOn then .powerOn
  else match p with
    | .running => .resetLine
    | .inReset c => c

/-- R199, R209: a full reset in force: nothing is held, ATTN is released (DESIGN CHOICE, log entries 5, 6). -/
def inFullReset (cause : StartCause) (pending : List Instr) : State :=
  { State.start cause 0 0 0 (fun _ => 0) [] pending with
    phase := .inReset cause
    events := { set := [], mask := BitVec.allOnes 25, attn := false } }

/-- FULL_RESET (R199). -/
def execFullReset (powerOn : Bool) (s : State) : Result :=
  .next (inFullReset (resetCause powerOn s.phase) s.pending)

/-- START_INSTANT (R200 to R202): the full reset ends, the straps are latched, every block begins work. -/
def execStartInstant (dom mh : BitVec 2) (s : State) : Result :=
  match s.phase with
  | .running => .next s
  | .inReset cause => .next (beginWork cause dom mh 0 (fun _ => 0) [] s.pending)

/-! ## Transactions (R185 to R191) -/

/-- R191: a well-formed frame restarts the host-silence timer at its deselection. -/
def restartHostTimer (now : AT) (h : HostPort) : HostPort :=
  { h with timer := if h.limitS = 0 then none else some (addUs now (h.limitS * 1000000)) }

/-- R187: a well-formed frame is taken, or lost as an overrun. -/
def takeFrame (now : AT) (code : Byte) (payload : List Byte) (h : HostPort) : HostPort :=
  let h' := restartHostTimer now h
  if h.inHand.isSome || h.resetPending.isSome then { h' with overruns := satInc Config.countMax h.overruns }
  else { h' with
    inHand := some ⟨code, payload, now⟩
    response := none
    taken := satInc Config.countMax h.taken }

/-- R186, R187: a write transaction's frame at its deselection. -/
def writeFrame (now : AT) (bytes : List Byte) (h : HostPort) : HostPort :=
  match bytes with
  | code :: len :: payload =>
    if payload.length = len.toNat then takeFrame now code payload h
    else { h with frameErrors := satInc Config.countMax h.frameErrors }
  | [_] => { h with frameErrors := satInc Config.countMax h.frameErrors }
  | [] => h

/-- R189: what `extra` bytes of a read transaction shift out after the first: the frame, then 00h. -/
def readBytes (extra : Nat) (frame : List Byte) : List Byte :=
  frame.take extra ++ List.replicate (extra - frame.length) 0

/-- R189: what a read transaction whose first byte comes now will shift out. -/
def readingNow (h : HostPort) : Reading := ⟨responseFrame h, h.resetPending.isSome⟩

/-- R189: the first byte of a read transaction: the response as it stands is what the transaction returns. -/
def beginReading (s : State) : State := s.withHost { s.host with reading := some (readingNow s.host) }

/-- R185, R189, R197: a read transaction at its deselection. It shifts out what stood at its first byte (a transaction whose
first byte was not sent as a command of its own is taken whole here, log entry 8); the one that returns a pending RESET
PART's OK resets the part. -/
def readResponse (extra : Nat) (s : State) : State :=
  let x := s.host.reading.getD (readingNow s.host)
  let s' := s.withHost { s.host with reading := none, shiftedOut := 0 :: readBytes extra x.frame }
  if x.returnsOk && s.host.resetPending.isSome && 1 ≤ extra then resetPartNow s' else s'

/-- R185, R189: one moment of a read transaction. -/
def readMoment (m : ReadMoment) (s : State) : State :=
  match m with
  | .firstByte => beginReading s
  | .deselection extra => readResponse extra s

/-- WRITE_TRANSACTION (R185 to R187). A transaction whose first byte is FFh is a read transaction (R185; log
entry 9). -/
def execWriteTransaction (now : AT) (bytes : List Byte) (s : State) : Result :=
  event now s fun s =>
    match bytes with
    | [] => s
    | b :: rest =>
      if b = 0xFF#8 then readResponse rest.length s
      else s.withHost { writeFrame s.now bytes s.host with shiftedOut := List.replicate bytes.length 0 }

/-- READ_TRANSACTION (R185, R189). -/
def execReadTransaction (now : AT) (m : ReadMoment) (s : State) : Result := event now s (readMoment m)

/-- RESET_PART_DEADLINE (R197). -/
def execResetPartDeadline (now : AT) (s : State) : Result :=
  event now s fun s =>
    match s.host.resetPending with
    | none => s
    | some d => if reached d s.now then resetPartNow s else s

/-- HOST_SILENCE_EXPIRY (R192, R128). -/
def execHostSilenceExpiry (now : AT) (s : State) : Result :=
  event now s fun s =>
    match s.host.timer with
    | none => s
    | some e => if reached e s.now then silenceAction (s.withHost { s.host with timer := none }) else s

/-! ## The catalogue (R190) -/

/-- R190: the codes of the command catalogue. -/
def catalogue : List Nat :=
  [0x01, 0x02, 0x03, 0x04, 0x05, 0x08, 0x09, 0x10, 0x11, 0x12, 0x13, 0x14, 0x15, 0x16, 0x20, 0x21, 0x22, 0x23,
   0x30, 0x31, 0x32, 0x33, 0x40, 0x41, 0x42, 0x43, 0x44, 0x45, 0x46, 0x47, 0x50, 0x51, 0x52, 0x60, 0x61, 0x62,
   0x63, 0x64, 0x65, 0x70, 0x71, 0x72, 0x73, 0x74, 0x78, 0x79]

/-- UNKNOWN_COMMAND (R188). -/
def execUnknownCommand (now : AT) (s : State) : Result :=
  event now s fun s =>
    match s.host.inHand with
    | none => s
    | some c => if catalogue.contains c.code.toNat then s else answer c (.unknownCommand, []) s

/-! ## Host commands of the port -/

/-- READ IDENTITY (R194). -/
def execReadIdentity (now : AT) (s : State) : Result :=
  handle 0x01 0 now s fun _ s =>
    okay (b2 Config.partCode ++ b1 Config.revision ++ b1 s.host.dom.toNat ++ b1 s.host.mains.toNat) s

/-- R195: the state of each radio with its channel when KNOWN. -/
def radioStateBytes (c : Option Chan) : List Byte := bFlag c.isSome ++ bOpt 1 bChan c

/-- R195: the payload of READ STATUS (layout: log entries 18, 23, 29). -/
def statusBytes (s : State) : List Byte :=
  b1 s.host.cause.code ++ bAT s.now
  ++ b1 s.ssc.line.code ++ b2 s.omap.passRound.toNat
  ++ b1 s.bcl.cal.status.code
  ++ allTrackers.flatMap (fun t => b1 (trackerStateCode (s.tracker t)))
  ++ b1 (s.gate .r0).mode.code ++ b1 (s.gate .r1).mode.code
  ++ radioStateBytes (s.link .r0).chan ++ radioStateBytes (s.link .r1).chan
  ++ b1 s.cpl.mode.code ++ bFlag (s.record .r0).inFlight.isSome ++ bFlag (s.record .r1).inFlight.isSome
  ++ b2 s.host.limitS ++ bOpt 4 (fun e => b4 (tdiff e s.now).toNat) s.host.timer
  ++ b2 s.host.taken ++ b2 s.host.frameErrors ++ b2 s.host.overruns

/-- READ STATUS (R195). -/
def execReadStatus (now : AT) (s : State) : Result :=
  handle 0x02 0 now s fun _ s => okay (statusBytes s) s

/-- RESET PART (R197, step 1): the OK becomes ready and RESET PART is pending. -/
def execResetPart (now : AT) (s : State) : Result :=
  handle 0x03 0 now s fun _ s =>
    okay [] (s.withHost { s.host with resetPending := some (addUs s.now Config.resetPartUs) })

/-- RESET MAP (R196): the map, the table and the planner, in that order. -/
def execResetMap (now : AT) (s : State) : Result :=
  handle 0x04 0 now s fun _ s => okay [] (resetPlans (resetTable (resetMapRecords s)))

/-- SET HOST SILENCE (R193): the new limit runs from the command's deselection. -/
def execSetHostSilence (now : AT) (s : State) : Result :=
  handle 0x05 2 now s fun p s =>
    let n := min 255 (arg2 p 0)
    let start := (s.host.inHand.map (·.deselected)).getD s.now
    okay (b2 n) (s.withHost (restartHostTimer start { s.host with limitS := n }))

/-! ## Host commands of the event unit -/

/-- R207: an entry in the payload of READ EVENTS. -/
def eventBytes (e : EventEntry) : List Byte := b1 e.kind.code ++ b1 e.count ++ b1 e.detail ++ bAT e.latest

/-- READ EVENTS (R207, R209): every entry is returned and removed, and ATTN is released. -/
def execReadEvents (now : AT) (s : State) : Result :=
  handle 0x08 0 now s fun _ s =>
    okay (bRun eventBytes s.events.set) (s.withEvents { s.events with set := [], attn := false })

/-- SET EVENT MASK (R208, R209). -/
def execSetEventMask (now : AT) (s : State) : Result :=
  handle 0x09 4 now s fun p s =>
    let m : BitVec 25 := (arg4 p 0).setWidth 25
    okay (b4 m.toNat) (s.withEvents { s.events with mask := m, attn := attnLevel s.events.set m })

end Sys2Proof.Machine
end

