-- ==== Sys2Proof/Decode.lean ====
section
/-! DEFINITION. Decoding. The opcode table gives no row any bits, so no word of the table's numbering spells a command. The
spec does give the byte layouts of the records that arrive (chapter 8, RECORD LAYOUTS) and the catalogue of command codes
(R190): `radioCommand`, `senseCommand` and `hostCommand` read those into the commands they are. -/

namespace Sys2Proof

/-- The command that a word of the opcode table's numbering spells: none, since the table gives no row any bits. -/
def decodeTableWord (_nbits _w : Nat) : Option Instr := none

/-- A record complete on radio `r`'s link at `now`: a two-byte header (type, payload length) and the payload (R166, and the
layouts of the records from the radio). A type or a length that fails a framing check is that error's row. -/
def radioCommand (now : AT) (r : Radio) (type : Byte) (payload : List Byte) : Instr :=
  match type.toNat, payload with
  | 0x01, [band, chan] => .status now r band chan
  | 0x02, [tag, l1, l0, m1, m0, w1, w0, cls] => .airRequest now r tag (l1 ++ l0) (m1 ++ m0) (w1 ++ w0) cls
  | 0x03, [tag, u1, u0] => .airEnd now r tag (u1 ++ u0)
  | 0x04, [n3, n2, n1, n0, chan, raw, a3, a2, a1, a0] =>
    .overheard now r (n3 ++ n2 ++ n1 ++ n0) chan raw (a3 ++ a2 ++ a1 ++ a0)
  | 0x05, [chan] => .radar now r chan
  | 0x06, [chan] => .switched now r chan
  | _, _ => .linkFramingError now r type (BitVec.ofNat 8 payload.length)

/-- A record complete on the sense line at `now` (R10, and the layouts of the records from the front end). -/
def senseCommand (now : AT) (type : Byte) (payload : List Byte) : Instr :=
  match type.toNat, payload with
  | 0xC1, [id] => .ready now id
  | 0xC2, [id, o2, o1, o0, d1, d0, raw, flags] =>
    .burst now id (o2 ++ o1 ++ o0) (d1 ++ d0) raw (flags.getLsbD 0) (flags.getLsbD 1)
  | 0xC3, [id, rawFloor, rawRef] => .close now id rawFloor rawRef
  | _, _ => .senseRecordDiscard now type (BitVec.ofNat 8 payload.length)

/-- R188, R190: the row that handles a command in hand with this code. -/
def hostCommand (now : AT) (code : Byte) : Instr :=
  match code.toNat with
  | 0x01 => .readIdentity now
  | 0x02 => .readStatus now
  | 0x03 => .resetPart now
  | 0x04 => .resetMap now
  | 0x05 => .setHostSilence now
  | 0x08 => .readEvents now
  | 0x09 => .setEventMask now
  | 0x10 => .writePlanEntry now
  | 0x11 => .clearPlan now
  | 0x12 => .commitPlan now
  | 0x13 => .readPlan now
  | 0x14 => .setRoundInterval now
  | 0x15 => .setWatch now
  | 0x16 => .readSchedule now
  | 0x20 => .calibrate now
  | 0x21 => .writeCorrection now
  | 0x22 => .readCalibration now
  | 0x23 => .readIntake now
  | 0x30 => .setTracking now
  | 0x31 => .setTracker now
  | 0x32 => .restartTracker now
  | 0x33 => .readTracker now
  | 0x40 => .readChannel now
  | 0x41 => .readMap now
  | 0x42 => .setAveraging now
  | 0x43 => .setMargin now
  | 0x44 => .setWeights now
  | 0x45 => .setBarTime now
  | 0x46 => .barChannel now
  | 0x47 => .unbar now
  | 0x50 => .readNeighbours now
  | 0x51 => .markFriendly now
  | 0x52 => .setNeighbourAge now
  | 0x60 => .setPlanner now
  | 0x61 => .setRadio now
  | 0x62 => .setChannel now
  | 0x63 => .acceptProposal now
  | 0x64 => .clearHold now
  | 0x65 => .readPlanner now
  | 0x70 => .setGate now
  | 0x71 => .setExclusion now
  | 0x72 => .setLatency now
  | 0x73 => .readGate now
  | 0x74 => .readGrants now
  | 0x78 => .setSilence now
  | 0x79 => .readLink now
  | _ => .unknownCommand now

end Sys2Proof
end

