-- ==== Sys2Proof/Machine/Dispatch.lean ====
section
/-! DEFINITION. The meaning of every command: one arm per row of spec/opcode_table.json. -/

namespace Sys2Proof.Machine

def exec (i : Instr) (s : State) : Host.Outcome State Fault Refusal :=
  match i with
  | .fullReset powerOn => Sys2Proof.Machine.execFullReset powerOn s
  | .startInstant dom mh => Sys2Proof.Machine.execStartInstant dom mh s
  | .writeTransaction now bytes => Sys2Proof.Machine.execWriteTransaction now bytes s
  | .readTransaction now moment => Sys2Proof.Machine.execReadTransaction now moment s
  | .resetPartDeadline now => Sys2Proof.Machine.execResetPartDeadline now s
  | .unknownCommand now => Sys2Proof.Machine.execUnknownCommand now s
  | .hostSilenceExpiry now => Sys2Proof.Machine.execHostSilenceExpiry now s
  | .readIdentity now => Sys2Proof.Machine.execReadIdentity now s
  | .readStatus now => Sys2Proof.Machine.execReadStatus now s
  | .resetPart now => Sys2Proof.Machine.execResetPart now s
  | .resetMap now => Sys2Proof.Machine.execResetMap now s
  | .setHostSilence now => Sys2Proof.Machine.execSetHostSilence now s
  | .readEvents now => Sys2Proof.Machine.execReadEvents now s
  | .setEventMask now => Sys2Proof.Machine.execSetEventMask now s
  | .writePlanEntry now => Sys2Proof.Machine.execWritePlanEntry now s
  | .clearPlan now => Sys2Proof.Machine.execClearPlan now s
  | .commitPlan now => Sys2Proof.Machine.execCommitPlan now s
  | .readPlan now => Sys2Proof.Machine.execReadPlan now s
  | .setRoundInterval now => Sys2Proof.Machine.execSetRoundInterval now s
  | .setWatch now => Sys2Proof.Machine.execSetWatch now s
  | .readSchedule now => Sys2Proof.Machine.execReadSchedule now s
  | .calibrate now => Sys2Proof.Machine.execCalibrate now s
  | .calibrateRevert now => Sys2Proof.Machine.execCalibrateRevert now s
  | .writeCorrection now => Sys2Proof.Machine.execWriteCorrection now s
  | .readCalibration now => Sys2Proof.Machine.execReadCalibration now s
  | .readIntake now => Sys2Proof.Machine.execReadIntake now s
  | .setTracking now => Sys2Proof.Machine.execSetTracking now s
  | .setTracker now => Sys2Proof.Machine.execSetTracker now s
  | .restartTracker now => Sys2Proof.Machine.execRestartTracker now s
  | .readTracker now => Sys2Proof.Machine.execReadTracker now s
  | .readChannel now => Sys2Proof.Machine.execReadChannel now s
  | .readMap now => Sys2Proof.Machine.execReadMap now s
  | .setAveraging now => Sys2Proof.Machine.execSetAveraging now s
  | .setMargin now => Sys2Proof.Machine.execSetMargin now s
  | .setWeights now => Sys2Proof.Machine.execSetWeights now s
  | .setBarTime now => Sys2Proof.Machine.execSetBarTime now s
  | .barChannel now => Sys2Proof.Machine.execBarChannel now s
  | .unbar now => Sys2Proof.Machine.execUnbar now s
  | .readNeighbours now => Sys2Proof.Machine.execReadNeighbours now s
  | .markFriendly now => Sys2Proof.Machine.execMarkFriendly now s
  | .setNeighbourAge now => Sys2Proof.Machine.execSetNeighbourAge now s
  | .setPlanner now => Sys2Proof.Machine.execSetPlanner now s
  | .setRadio now => Sys2Proof.Machine.execSetRadio now s
  | .setChannel now => Sys2Proof.Machine.execSetChannel now s
  | .acceptProposal now => Sys2Proof.Machine.execAcceptProposal now s
  | .clearHold now => Sys2Proof.Machine.execClearHold now s
  | .readPlanner now => Sys2Proof.Machine.execReadPlanner now s
  | .setGate now => Sys2Proof.Machine.execSetGate now s
  | .setExclusion now => Sys2Proof.Machine.execSetExclusion now s
  | .setLatency now => Sys2Proof.Machine.execSetLatency now s
  | .readGate now => Sys2Proof.Machine.execReadGate now s
  | .readGrants now => Sys2Proof.Machine.execReadGrants now s
  | .setSilence now => Sys2Proof.Machine.execSetSilence now s
  | .readLink now => Sys2Proof.Machine.execReadLink now s
  | .ready now id => Sys2Proof.Machine.execReady now id s
  | .burst now id offset duration raw cutStart cutEnd => Sys2Proof.Machine.execBurst now id offset duration raw cutStart cutEnd s
  | .close now id rawFloor rawRef => Sys2Proof.Machine.execClose now id rawFloor rawRef s
  | .dwellEnd now => Sys2Proof.Machine.execDwellEnd now s
  | .tuneTimeout now => Sys2Proof.Machine.execTuneTimeout now s
  | .closeWaitExpiry now => Sys2Proof.Machine.execCloseWaitExpiry now s
  | .faultRetry now => Sys2Proof.Machine.execFaultRetry now s
  | .roundDue now => Sys2Proof.Machine.execRoundDue now s
  | .watchDue now => Sys2Proof.Machine.execWatchDue now s
  | .emptyPlanTimer now => Sys2Proof.Machine.execEmptyPlanTimer now s
  | .senseRecordDiscard now type len => Sys2Proof.Machine.execSenseRecordDiscard now type len s
  | .senseTruncation now => Sys2Proof.Machine.execSenseTruncation now s
  | .senseResyncClear now => Sys2Proof.Machine.execSenseResyncClear now s
  | .searchTimeout now t => Sys2Proof.Machine.execSearchTimeout now t s
  | .holdoverExpiry now t => Sys2Proof.Machine.execHoldoverExpiry now t s
  | .barClockTick now => Sys2Proof.Machine.execBarClockTick now s
  | .radarBarExpiry now c => Sys2Proof.Machine.execRadarBarExpiry now c s
  | .status now r band chan => Sys2Proof.Machine.execStatus now r band chan s
  | .airRequest now r tag len minLen maxWait cls => Sys2Proof.Machine.execAirRequest now r tag len minLen maxWait cls s
  | .airEnd now r tag used => Sys2Proof.Machine.execAirEnd now r tag used s
  | .overheard now r network chan raw airtime => Sys2Proof.Machine.execOverheard now r network chan raw airtime s
  | .radar now r chan => Sys2Proof.Machine.execRadar now r chan s
  | .switched now r chan => Sys2Proof.Machine.execSwitched now r chan s
  | .linkFramingError now r type len => Sys2Proof.Machine.execLinkFramingError now r type len s
  | .linkTruncation now r => Sys2Proof.Machine.execLinkTruncation now r s
  | .linkResyncClear now r => Sys2Proof.Machine.execLinkResyncClear now r s
  | .silenceTimerExpiry now r => Sys2Proof.Machine.execSilenceTimerExpiry now r s
  | .switchDeadline now r => Sys2Proof.Machine.execSwitchDeadline now r s
  | .grantExpiry now r => Sys2Proof.Machine.execGrantExpiry now r s
  | .grantEntryAgeOut now b => Sys2Proof.Machine.execGrantEntryAgeOut now b s

end Sys2Proof.Machine
end

