-- ==== Sys2Proof/Safety.lean ====
section
/-! DEFINITION. The terms that claims use: the parts of the state and what each command may touch; the invariants that the
rules state of each block; what a start instant leaves; a host command in hand and its answer; the rows of the command catalogue. -/

namespace Sys2Proof.Machine

/-! ## Frames -/

/-- The parts of the state: one for each field of `State`. -/
inductive Part
  | phase
  | now
  | ssc
  | bcl
  | otk
  | omap
  | ntab
  | cpl
  | agt
  | links
  | host
  | events
  | pending
deriving DecidableEq, Repr

/-- Two states agree on a part. -/
def State.agree (s t : State) : Part → Prop
  | .phase => s.phase = t.phase
  | .now => s.now = t.now
  | .ssc => s.ssc = t.ssc
  | .bcl => s.bcl = t.bcl
  | .otk => s.otk = t.otk
  | .omap => s.omap = t.omap
  | .ntab => s.ntab = t.ntab
  | .cpl => s.cpl = t.cpl
  | .agt => s.agt = t.agt
  | .links => s.links = t.links
  | .host => s.host = t.host
  | .events => s.events = t.events
  | .pending => s.pending = t.pending

/-- `t` differs from `s` in the parts `ps` at most. -/
def touchesOnly (ps : List Part) (s t : State) : Prop := ∀ p, p ∉ ps → s.agree t p

/-- What a reset may touch: everything but the queue. -/
def resetParts : List Part :=
  [.phase, .now, .ssc, .bcl, .otk, .omap, .ntab, .cpl, .agt, .links, .host, .events]

/-- What the close of a dwell, with the round completion that may follow it, may touch. -/
def closeParts : List Part := [.now, .ssc, .bcl, .otk, .omap, .ntab, .cpl, .links, .events]

/-- The parts that each command may touch. -/
def touched : Instr → List Part
  | .fullReset _ => resetParts
  | .startInstant _ _ => resetParts
  | .writeTransaction _ _ => resetParts
  | .readTransaction _ _ => resetParts
  | .resetPartDeadline _ => resetParts
  | .unknownCommand _ => [.now, .host]
  | .hostSilenceExpiry _ => [.now, .host, .cpl, .links, .events]
  | .readIdentity _ => [.now, .host]
  | .readStatus _ => [.now, .host]
  | .resetPart _ => [.now, .host]
  | .resetMap _ => [.now, .host, .omap, .ntab, .cpl]
  | .setHostSilence _ => [.now, .host]
  | .readEvents _ => [.now, .host, .events]
  | .setEventMask _ => [.now, .host, .events]
  | .writePlanEntry _ => [.now, .host, .ssc]
  | .clearPlan _ => [.now, .host, .ssc]
  | .commitPlan _ => [.now, .host, .ssc, .events]
  | .readPlan _ => [.now, .host]
  | .setRoundInterval _ => [.now, .host, .ssc]
  | .setWatch _ => [.now, .host, .ssc]
  | .readSchedule _ => [.now, .host, .ssc]
  | .calibrate _ => [.now, .host, .ssc, .bcl, .omap, .events]
  | .calibrateRevert _ => [.now, .host, .ssc, .bcl, .omap, .events]
  | .writeCorrection _ => [.now, .host, .omap]
  | .readCalibration _ => [.now, .host]
  | .readIntake _ => [.now, .host]
  | .setTracking _ => [.now, .host, .otk, .ssc, .events]
  | .setTracker _ => [.now, .host, .otk]
  | .restartTracker _ => [.now, .host, .otk, .ssc]
  | .readTracker _ => [.now, .host]
  | .readChannel _ => [.now, .host]
  | .readMap _ => [.now, .host]
  | .setAveraging _ => [.now, .host, .omap]
  | .setMargin _ => [.now, .host, .omap]
  | .setWeights _ => [.now, .host, .omap]
  | .setBarTime _ => [.now, .host, .omap]
  | .barChannel _ => [.now, .host, .omap]
  | .unbar _ => [.now, .host, .omap]
  | .readNeighbours _ => [.now, .host]
  | .markFriendly _ => [.now, .host, .ntab]
  | .setNeighbourAge _ => [.now, .host, .ntab]
  | .setPlanner _ => [.now, .host, .cpl]
  | .setRadio _ => [.now, .host, .cpl]
  | .setChannel _ => [.now, .host, .cpl, .links]
  | .acceptProposal _ => [.now, .host, .cpl, .links]
  | .clearHold _ => [.now, .host, .cpl]
  | .readPlanner _ => [.now, .host]
  | .setGate _ => [.now, .host, .agt, .links]
  | .setExclusion _ => [.now, .host, .agt]
  | .setLatency _ => [.now, .host, .agt]
  | .readGate _ => [.now, .host]
  | .readGrants _ => [.now, .host]
  | .setSilence _ => [.now, .host, .links, .agt, .events]
  | .readLink _ => [.now, .host]
  | .ready _ _ => closeParts
  | .burst _ _ _ _ _ _ _ => [.now, .ssc, .bcl, .otk, .omap, .events]
  | .close _ _ _ _ => closeParts
  | .dwellEnd _ => closeParts
  | .tuneTimeout _ => closeParts
  | .closeWaitExpiry _ => closeParts
  | .faultRetry _ => [.now, .ssc]
  | .roundDue _ => [.now, .ssc]
  | .watchDue _ => [.now, .ssc]
  | .emptyPlanTimer _ => [.now, .ssc, .omap, .ntab, .cpl, .links, .events]
  | .senseRecordDiscard _ _ _ => [.now]
  | .senseTruncation _ => [.now]
  | .senseResyncClear _ => [.now, .ssc]
  | .searchTimeout _ _ => [.now, .otk, .ssc, .events]
  | .holdoverExpiry _ _ => [.now, .otk, .ssc, .events]
  | .barClockTick _ => [.now, .omap]
  | .radarBarExpiry _ _ => [.now, .omap]
  | .status _ _ _ _ => [.now, .links, .agt, .cpl, .events]
  | .airRequest _ _ _ _ _ _ _ => [.now, .links, .agt, .cpl, .events]
  | .airEnd _ _ _ _ => [.now, .links, .agt, .cpl, .events]
  | .overheard _ _ _ _ _ _ => [.now, .links, .agt, .cpl, .events, .ntab]
  | .radar _ _ _ => [.now, .links, .agt, .cpl, .events, .omap]
  | .switched _ _ _ => [.now, .links, .agt, .cpl, .events]
  | .linkFramingError _ _ _ _ => [.now, .links, .events]
  | .linkTruncation _ _ => [.now, .links, .events]
  | .linkResyncClear _ _ => [.now, .links]
  | .silenceTimerExpiry _ _ => [.now, .links, .agt, .events]
  | .switchDeadline _ _ => [.now, .cpl, .events]
  | .grantExpiry _ _ => [.now, .agt, .events]
  | .grantEntryAgeOut _ _ => [.now, .agt]

/-! ## Invariants -/

/-- R204, R209: the set stands in kind-code order with one entry of a kind at most, every count is 1 to 255, and ATTN is
asserted exactly while an entry's kind is enabled. -/
def EventsInv (s : State) : Prop :=
  s.events.set.Pairwise (fun a b => a.kind.code < b.kind.code)
  ∧ (∀ e ∈ s.events.set, 1 ≤ e.count ∧ e.count ≤ 255)
  ∧ s.events.attn = attnLevel s.events.set s.events.mask

/-- The gate is in SAFE. -/
def GateState.isSafe : GateState → Bool
  | .host _ => false
  | .safe _ => true

/-- R165, R177: a radio's silent flag is set exactly while its gate is SAFE, and its timer is stopped while it is silent. -/
def SilenceInv (s : State) : Prop :=
  ∀ r, (s.link r).silent = (s.gate r).mode.isSafe ∧ ((s.link r).silent = true → (s.link r).timer = none)

/-- R94: at most 64 entries, no two of one network id and channel. -/
def TableInv (s : State) : Prop :=
  s.ntab.entries.length ≤ 64
  ∧ s.ntab.entries.Pairwise (fun a b => ¬ (a.network = b.network ∧ a.chan = b.chan))

/-- R136, R134: a recent-grant list holds at most 16 entries, and a grant in a slot lasts 32 to 8000 µs. -/
def GateInv (s : State) : Prop :=
  (∀ b, (s.recent b).length ≤ 16)
  ∧ ∀ r, ∀ g ∈ (s.gate r).slot, 32 ≤ g.length ∧ g.length ≤ 8000

/-- R73: the ranges of a channel record. -/
def ChannelRecord.ok (x : ChannelRecord) : Prop :=
  x.floor ≤ 240 ∧ x.busyFrame ≤ 1000 ∧ x.busyOven ≤ 1000 ∧ x.busyOther ≤ 1000
  ∧ -16 ≤ x.correction ∧ x.correction ≤ 15 ∧ x.ovenCost ≤ 1000 ∧ x.pressure ≤ 1000 ∧ x.load ≤ 1000

/-- R73, R77 to R79, R88: every channel record and every setting of the map is in its range. -/
def MapInv (s : State) : Prop :=
  (∀ c, (s.chan c).ok)
  ∧ s.omap.divisor ∈ [2, 4, 8, 16] ∧ s.omap.margin ≤ 40 ∧ s.omap.weight ≤ 200
  ∧ s.omap.pressureThreshold ≤ 240 ∧ 60 ≤ s.omap.barTime ∧ s.omap.barTime ≤ 3600
  ∧ s.omap.barClock ≤ Config.barClockMax

/-- R73, R200: the permitted field of every channel is the latched domain's. -/
def DomainInv (s : State) : Prop := ∀ c, (s.chan c).permitted = permittedIn s.host.dom c

/-- R1: a plan has at most 32 entries, each of 1 to 100 ms and on a channel permitted in domain `dom`. -/
def planOk (dom : BitVec 2) (plan : List PlanEntry) : Prop :=
  plan.length ≤ 32 ∧ ∀ e ∈ plan, 1 ≤ e.dwellMs ∧ e.dwellMs ≤ 100 ∧ permittedIn dom e.chan = true

/-- R1, R9, R15, R19, R20: the plans, the intervals and the tune-timeout count are in range, and a parked front end has no
current dwell. With it, the permitted fields are the domain's. -/
def ScheduleInv (s : State) : Prop :=
  DomainInv s
  ∧ planOk s.host.dom s.ssc.active ∧ planOk s.host.dom s.ssc.plan
  ∧ s.ssc.intervalMs ≤ 30000 ∧ s.ssc.intervalMs % 5 = 0
  ∧ 100 ≤ s.ssc.watchMs ∧ s.ssc.watchMs ≤ 5000 ∧ s.ssc.watchMs % 100 = 0
  ∧ s.ssc.timeouts ≤ 3
  ∧ (s.ssc.line = .parked → s.ssc.current = none)

/-- R47: what a tracker that is not IDLE holds is in range; its span lies in 2.4 GHz. -/
def Oven.ok (o : Oven) : Prop :=
  (periodBand o.candidate).1 ≤ o.period ∧ o.period ≤ (periodBand o.candidate).2
  ∧ 3000 ≤ o.width ∧ o.width ≤ 12000 ∧ 100 ≤ o.guardUs ∧ o.guardUs ≤ 2000 ∧ o.jitter ≤ 2000
  ∧ o.hits ≤ 15 ∧ o.misses ≤ 15 ∧ o.lo ≤ o.hi ∧ o.hi.val ≤ 12
  ∧ o.hitSets.length ≤ 2 ∧ ∀ h ∈ o.hitSets, h.starts.length ≤ 8

/-- R48: the six tracking settings are in range. -/
def TrackSettings.ok (x : TrackSettings) : Prop :=
  200 ≤ x.tolerance ∧ x.tolerance ≤ 2000 ∧ 3 ≤ x.lockThreshold ∧ x.lockThreshold ≤ 15
  ∧ 2 ≤ x.missLimit ∧ x.missLimit ≤ 15 ∧ x.holdoverMs ≤ 60000 ∧ 100 ≤ x.searchGuard ∧ x.searchGuard ≤ 2000

/-- R47, R48, R51: every tracker and every tracking setting is in range. -/
def TrackerInv (s : State) : Prop :=
  s.otk.settings.ok
  ∧ ∀ t, 100 ≤ (s.tracker t).fixedGuard ∧ (s.tracker t).fixedGuard ≤ 2000 ∧ ∀ o ∈ (s.tracker t).oven, o.ok

/-- R108, R109, R110: the planner's settings and counts are in range. -/
def PlannerInv (s : State) : Prop :=
  s.cpl.hysteresis ≤ 1000 ∧ 1 ≤ s.cpl.sustainLimit ∧ s.cpl.sustainLimit ≤ 15 ∧ s.cpl.minStay ≤ 3600
  ∧ ∀ r, (s.record r).sustain ≤ 15 ∧ 1 ≤ (s.record r).announce ∧ (s.record r).announce ≤ 15
    ∧ ∀ w ∈ (s.record r).inFlight, 1 ≤ w.count ∧ w.count ≤ 15

/-! ## A start instant -/

/-- What every start instant leaves (R202, with R23, R46, R72, R92, R107, R131, R163, R182, R203, R210): the part `t` has
begun work with this cause, these straps and this first dwell id, at AT 0. -/
def begunWork (cause : StartCause) (dom mains : BitVec 2) (firstId : Byte) (t : State) : Prop :=
  t.phase = .running ∧ t.now = 0
  ∧ t.host.cause = cause ∧ t.host.dom = dom ∧ t.host.mains = mains ∧ t.host.inHand = none ∧ t.host.response = none
  ∧ t.host.resetPending = none ∧ t.host.limitS = 0 ∧ t.host.timer = none ∧ t.host.taken = 0 ∧ t.host.frameErrors = 0
  ∧ t.host.overruns = 0
  ∧ t.ssc.active = (allChans.filter fun c => c.val ≤ 12 && permittedIn dom c).map (⟨·, 40⟩)
  ∧ t.ssc.plan = [] ∧ t.ssc.armed = false ∧ t.ssc.intervalMs = 0 ∧ t.ssc.watchMs = 500 ∧ t.ssc.roundNumber = 0
  ∧ t.ssc.roundStart = 0 ∧ t.ssc.phase = .running ∧ t.ssc.position = 0 ∧ t.ssc.nextId = firstId + 1
  ∧ t.ssc.current = some ⟨⟨.sweep, firstId, 0, 40, none, false⟩, .ordered 0⟩ ∧ t.ssc.sent = [.tune firstId 0]
  ∧ t.ssc.ended = none ∧ t.ssc.lastWatch = ⟨none, none, none⟩ ∧ t.ssc.calQueue = [] ∧ t.ssc.line = .running
  ∧ t.ssc.timeouts = 0 ∧ t.ssc.resync = true
  ∧ t.bcl = ⟨[], none, ⟨.idle, none, 0, 0, false⟩⟩
  ∧ (∀ k, t.tracker k = ⟨none, .auto, 1000⟩) ∧ t.otk.settings = ⟨600, 4, 6, 2000, 1500, .avoid⟩
  ∧ (∀ c, t.chan c = { permitted := permittedIn dom c, floor := 40, busyFrame := 0, busyOven := 0, busyOther := 0
                       lastDwell := none, overRange := false, underRange := false, correction := (t.chan c).correction
                       bad := false, barredUntil := none, heldOut := false, ovenCost := 0, pressure := 0, load := 0 })
  ∧ t.omap.divisor = 4 ∧ t.omap.margin = 12 ∧ t.omap.weight = 20 ∧ t.omap.pressureThreshold = 76
  ∧ t.omap.barTime = 1800 ∧ t.omap.barClock = 0 ∧ t.omap.lastRise = 0 ∧ t.omap.passRound = 0
  ∧ t.ntab = ⟨[], 0, 0, 300⟩
  ∧ (∀ r, t.record r = ⟨0, none, none, none, none, none, false, none, false, 5⟩)
  ∧ t.cpl.mode = .advise ∧ t.cpl.hysteresis = 150 ∧ t.cpl.sustainLimit = 3 ∧ t.cpl.minStay = 60 ∧ t.cpl.action = .keep
  ∧ (∀ r, t.gate r = ⟨.host .gateOpen, 20, none⟩) ∧ (∀ b, t.recent b = []) ∧ t.agt.exclusion = true
  ∧ (∀ r, t.link r = ⟨none, none, false, 500, none, 0, 0, none, true, []⟩)
  ∧ t.events.set = [⟨.start, 1, cause.code, 0⟩] ∧ (∀ k, enabledIn t.events.mask k = true) ∧ t.events.attn = true

/-! ## A host command in hand and its answer -/

/-- The part is running and the command in hand has this code and this payload. -/
def State.inHandIs (s : State) (code : Byte) (payload : List Byte) : Prop :=
  s.phase = .running ∧ s.host.inHand.map (fun c => (c.code, c.payload)) = some (code, payload)

/-- The state after a command handled at `t` has been answered and nothing else has changed (R188). -/
def State.answered (s : State) (t : AT) (code : Byte) (rc : Code) (payload : List Byte) : State :=
  { s with
    now := t
    host := { s.host with inHand := none, response := some ⟨rc, code, payload⟩ } }

/-- The rows of the command catalogue (R190): the code, the number of argument bytes (R184), the command that handles it. -/
def catalogueRows : List (Byte × Nat × (AT → Instr)) :=
  [(0x01, 0, .readIdentity), (0x02, 0, .readStatus), (0x03, 0, .resetPart), (0x04, 0, .resetMap),
   (0x05, 2, .setHostSilence), (0x08, 0, .readEvents), (0x09, 4, .setEventMask), (0x10, 3, .writePlanEntry),
   (0x11, 0, .clearPlan), (0x12, 0, .commitPlan), (0x13, 3, .readPlan), (0x14, 2, .setRoundInterval),
   (0x15, 2, .setWatch), (0x16, 0, .readSchedule), (0x20, 6, .calibrate), (0x20, 6, .calibrateRevert),
   (0x21, 2, .writeCorrection), (0x22, 0, .readCalibration), (0x23, 0, .readIntake)]
  ++ [(0x30, 9, .setTracking), (0x31, 4, .setTracker), (0x32, 1, .restartTracker), (0x33, 1, .readTracker),
   (0x40, 1, .readChannel), (0x41, 0, .readMap), (0x42, 1, .setAveraging), (0x43, 1, .setMargin),
   (0x44, 3, .setWeights), (0x45, 2, .setBarTime), (0x46, 1, .barChannel), (0x47, 1, .unbar),
   (0x50, 2, .readNeighbours), (0x51, 5, .markFriendly), (0x52, 2, .setNeighbourAge)]
  ++ [(0x60, 7, .setPlanner), (0x61, 4, .setRadio), (0x62, 3, .setChannel), (0x63, 1, .acceptProposal),
   (0x64, 1, .clearHold), (0x65, 0, .readPlanner), (0x70, 2, .setGate), (0x71, 1, .setExclusion),
   (0x72, 3, .setLatency), (0x73, 1, .readGate), (0x74, 1, .readGrants), (0x78, 3, .setSilence),
   (0x79, 1, .readLink)]

/-- R185, R189: what a read transaction of `extra` bytes after the FFh has shifted out: 00h, then the frame, then 00h. -/
def shiftsOut (extra : Nat) (frame out : List Byte) : Prop :=
  out.length = extra + 1 ∧ out.head? = some 0 ∧ ∀ i < extra, out[i + 1]? = some (frame.getD i 0)

/-! ## The schedule -/

/-- R19, R18: there is work that wakes a parked front end: a watch is due, the calibration queue holds channels, a round is in
progress with entries left (a plan applied over an empty one starts one), or the next round is due. -/
def State.hasWork (s : State) : Prop :=
  (∃ k, watchDue s k = true) ∨ s.ssc.calQueue ≠ []
  ∨ (s.ssc.phase = .running ∧ s.ssc.position < s.ssc.active.length)
  ∨ ∃ ended due, s.ssc.phase = .between ended due ∧ 0 ≤ tdiff s.now due ∧ s.ssc.active ≠ []

/-- R19: `t` follows `u`: a front end that is parked meets a boundary when it has work; else nothing more happens. -/
def State.wakesTo (u t : State) : Prop :=
  (u.ssc.line = .parked ∧ u.hasWork → t = boundary u) ∧ (¬ (u.ssc.line = .parked ∧ u.hasWork) → t = u)

/-- R5, R6, R1: the visit of a round's last entry, at AT, ends the round: the round number rises, the next due instant is the
later of the interval's end and now, ROUND_LATE when the interval ended before, and an armed plan is applied. -/
def State.roundEnded (s : State) : State :=
  let n := s.ssc.roundNumber + 1
  let due := s.ssc.roundStart + BitVec.ofNat 32 (s.ssc.intervalMs * 1000)
  let u := { s with ssc := { s.ssc with
    position := s.ssc.position + 1, roundNumber := n
    phase := .between s.now (if 0 ≤ tdiff due s.now then due else s.now) } }
  let v := if s.ssc.intervalMs ≠ 0 ∧ 0 < tdiff s.now due then raise .roundLate (n.toNat % 256) u else u
  if s.ssc.armed = true then
    raise .planApplied s.ssc.plan.length { v with ssc := { v.ssc with
      active := s.ssc.plan, plan := [], armed := false
      phase := if s.ssc.plan = [] then .stopped (s.now + 1000000) else v.ssc.phase
      position := if s.ssc.plan = [] then 0 else v.ssc.position } }
  else v

/-! ## Records from the front end and from the radios -/

/-- The part is running and takes the front end's bytes as records (R23). -/
def State.senses (s : State) : Prop := s.phase = .running ∧ s.ssc.resync = false

/-- R14: a BURST with this id belongs to dwell `d`, opened at `ready`: the open current dwell, else the ended dwell. -/
def State.burstFor (s : State) (id : Byte) (d : Dwell) (ready : AT) : Prop :=
  d.id = id
  ∧ ((∃ held, s.ssc.current = some ⟨d, .opened ready held⟩)
    ∨ ((∀ d' ready' held, s.ssc.current = some ⟨d', .opened ready' held⟩ → d'.id ≠ id)
      ∧ ∃ wait completion, s.ssc.ended = some ⟨d, ready, wait, completion⟩))

/-- R27: a burst on a channel of band `b`, of this start and duration, overlaps an entry of the recent-grant list. -/
def State.burstOwn (s : State) (b : Band) (start : AT) (duration : Nat) : Prop :=
  ∃ e ∈ s.recent b, 0 < duration ∧ tdiff e.start start < tdiff e.stop start ∧ tdiff e.start start < duration
    ∧ 0 < tdiff e.stop start

/-- R25, R28: a raw peak level on channel `c` reaches the channel's threshold. -/
def State.burstStrong (s : State) (c : Chan) (raw : Byte) : Prop :=
  (min 240 ((s.chan c).floor + s.omap.margin) : Nat) ≤ min 240 (max 0 ((raw.toNat : Int) + (s.chan c).correction))

/-- The tally of dwell `id` changed by `f`, nothing else. -/
def State.onTally (s : State) (id : Byte) (f : Tally → Tally) : State :=
  { s with bcl := { s.bcl with tallies := s.bcl.tallies.map fun x => if x.id = id then f x else x } }

/-- R37: what a burst of dwell `d` that is not OWN does before its class is found: a saturated one sets the tally's
saturated-seen mark and the channel's OVER flag, with RANGE when OVER was clear; any other does nothing. -/
def State.sawBurst (s : State) (d : Dwell) (raw : Byte) : State :=
  if raw.toNat < 240 then s
  else
    let u := (s.onTally d.id fun x => { x with saturated := true }).setChan d.chan
      { s.chan d.chan with overRange := true }
    if (s.chan d.chan).overRange = true then u else raise .range d.chan.val u

/-- The part is running, and radio `r`'s link takes its bytes as records (R183) and is not silent. -/
def State.listens (s : State) (r : Radio) : Prop :=
  s.phase = .running ∧ (s.link r).resync = false ∧ (s.link r).silent = false

/-- R167, R176: what a valid record of radio `r`, not silent, handled at `t`, does before its fields are checked. -/
def State.tookRecord (s : State) (t : AT) (r : Radio) : State :=
  (s.withNow t).setLink r { s.link r with
    timer := some (t + BitVec.ofNat 32 ((s.link r).limitMs * 1000)), lastValid := some t
    taken := min 65535 ((s.link r).taken + 1) }

/-- R167: a link error of this kind counted and raised. -/
def State.withLinkError (s : State) (r : Radio) (k : LinkErrorKind) : State :=
  raise .linkError (radioCode r) (s.setLink r { s.link r with
    errors := min 65535 ((s.link r).errors + 1), lastError := some (k, s.now) })

/-- R125, R119: what a radar move turns `v` into, for a radio `q` whose current channel `c` has radar: nothing while it
switches or its gate is OFF or SAFE; else a switch order to the best eligible channel with count 1, or NO_CHANNEL. -/
def State.radarMoved (v : State) (q : Radio) (c : Chan) (w : State) : Prop :=
  ((v.record q).inFlight ≠ none ∨ gateServes (v.gate q) = false → w = v)
  ∧ ((v.record q).inFlight = none → gateServes (v.gate q) = true →
    (bestOf v q = none → w = raise .noChannel (radioCode q) v)
    ∧ ∀ best, bestOf v q = some best →
      w.record q = { v.record q with
        sustain := 0, candidate := none, proposal := none, inFlight := some ⟨best, 1, v.now + 1102400, .radar, c⟩ }
      ∧ w.link q = { v.link q with sent := (v.link q).sent ++ [.switch best 1] }
      ∧ w.record (otherRadio q) = v.record (otherRadio q) ∧ w.link (otherRadio q) = v.link (otherRadio q)
      ∧ w.cpl = { v.cpl with records := w.cpl.records } ∧ touchesOnly [.cpl, .links] v w)

/-! ## The airtime gates -/

/-- R66, R141: the windows of this oven are avoided by a request of class `q` on channel `c`: some tracker that holds it is
protecting for the class and covers the channel, a 2.4 GHz one (R140). -/
def State.shapes (s : State) (q : ReqClass) (c : Chan) (o : Oven) : Prop :=
  c.val ≤ 12 ∧ protecting s.otk.settings.policy q o = true ∧ covers o c = true ∧ ∃ k, (s.tracker k).oven = some o

/-- R140 to R142: the interval [lo, hi), counted from `t0`, is in the blocking set of a request of class `q` of radio `r` on
channel `c`: a window of any index, guarded for the class, of an oven that shapes the request, or with exclusion the other
radio's outstanding grant when it ends after `t0`. -/
def State.blocks (s : State) (r : Radio) (c : Chan) (q : ReqClass) (t0 : AT) (lo hi : Int) : Prop :=
  (∃ o, s.shapes q c o ∧ ∃ i : Int,
    lo = tdiff o.anchor t0 + i * o.period - classGuard s.otk.settings q o
    ∧ hi = tdiff o.anchor t0 + i * o.period + o.width + classGuard s.otk.settings q o)
  ∨ (exclusionApplies s r = true ∧ ∃ g, (s.gate (otherRadio r)).slot = some g
    ∧ lo = tdiff g.start t0 ∧ hi = tdiff (g.start + BitVec.ofNat 32 g.length) t0 ∧ 0 < hi)

/-- R143: `n` µs from `w` µs after `t0` are clear of the blocking set. -/
def State.fits (s : State) (r : Radio) (c : Chan) (q : ReqClass) (t0 : AT) (w n : Nat) : Prop :=
  ∀ lo hi, s.blocks r c q t0 lo hi → (w : Int) + n ≤ lo ∨ hi ≤ w

/-- R143: `next` is the latest end among the blocking intervals that overlap the `n` µs from `start`. -/
def State.movesOn (s : State) (r : Radio) (c : Chan) (q : ReqClass) (t0 : AT) (n : Nat) (start next : Int) : Prop :=
  (∃ lo, s.blocks r c q t0 lo next ∧ lo < start + n ∧ start < next)
  ∧ ∀ lo hi, s.blocks r c q t0 lo hi → lo < start + n → start < hi → hi ≤ next

/-- R146, R136, R147: the issue of a GRANT or SHORT with wait `w` as grant `g` to radio `r`, its channel in band `b`, turns
`u` into `t`: the slot is filled and the answer sent; the entry stands in the band's list in order of start, after those of
an equal start; a list of 16 has lost its first entry before, and an outstanding grant of the other radio that the lost
entry recorded has its list entry absent. Nothing else changes. -/
def State.issues (u : State) (r : Radio) (b : Band) (w : Nat) (g : Grant) (t : State) : Prop :=
  let lost : GrantEntry → Prop := fun e => 16 ≤ (u.recent b).length ∧ (u.recent b).head? = some e
    ∧ e.live = true ∧ e.radio = otherRadio r
  t.gate r = { u.gate r with slot := some g }
  ∧ t.links = (sendRadio r (if g.short = true then .short g.tag w g.length else .grant g.tag w g.length) u).links
  ∧ (∃ before after, (if 16 ≤ (u.recent b).length then (u.recent b).tail else u.recent b) = before ++ after
    ∧ t.recent b = before ++ ⟨r, g.start, g.start + BitVec.ofNat 32 g.length, true⟩ :: after
    ∧ (∀ e ∈ before, tdiff e.start g.start ≤ 0) ∧ ∀ e, after.head? = some e → 0 < tdiff e.start g.start)
  ∧ (∀ b', b' ≠ b → t.recent b' = u.recent b')
  ∧ (∀ e, lost e → t.gate (otherRadio r) = { u.gate (otherRadio r) with
      slot := (u.gate (otherRadio r)).slot.map fun x => { x with listEntry := false } })
  ∧ ((∀ e, ¬ lost e) → t.gate (otherRadio r) = u.gate (otherRadio r))
  ∧ t.agt.exclusion = u.agt.exclusion
  ∧ touchesOnly [.links, .agt] u t

end Sys2Proof.Machine
end

