-- ==== Sys2Proof/Certificates/Slice0/Obligations.lean ====
section
/-! DEFINITION. The statements for the provers: what a step is, the frames and the invariants of every command, and for each
command what its rule says it does. -/

open Sys2Proof Sys2Proof.Machine

/-! ## The step, the frames, the invariants -/

/-- A step takes the command at the front of the queue and executes it with the queue's rest. -/
def Obligations.StepRunsFrontCommand : Prop :=
  ∀ (s : State) (c : Instr) (rest : List Instr), s.pending = c :: rest → step s = exec c { s with pending := rest }

/-- On an empty queue a step leaves the state as it is (the model's choice, log entry 3). -/
def Obligations.EmptyQueueIdles : Prop := ∀ s : State, s.pending = [] → step s = .next s

/-- Every command completes, in every state, and changes at most the parts of the state that `touched` names for it; the
queue is never among them: it outlives a reset too, which is the model's choice (log entry 5). -/
def Obligations.EveryCommandCompletesInItsFrame : Prop :=
  ∀ (c : Instr) (s : State), ∃ t, exec c s = .next t ∧ touchesOnly (touched c) s t ∧ t.pending = s.pending

/-- R204, R209: every step keeps the event set sorted, its counts in range, and ATTN at the level the set and mask call for. -/
def Obligations.StepKeepsEventSetAndAttn : Prop :=
  ∀ s t : State, EventsInv s → step s = .next t → EventsInv t

/-- R165, R177: every step keeps a radio's silent flag set exactly while its gate is SAFE, with its timer stopped. -/
def Obligations.StepKeepsSilenceWithSafe : Prop :=
  ∀ s t : State, SilenceInv s → step s = .next t → SilenceInv t

/-- R94: every step keeps the neighbour table to 64 entries, one of a network id and channel. -/
def Obligations.StepKeepsNeighbourTable : Prop :=
  ∀ s t : State, TableInv s → step s = .next t → TableInv t

/-- R134, R136: every step keeps the recent-grant lists to 16 entries and outstanding grants to 32 to 8000 µs. -/
def Obligations.StepKeepsGrantRanges : Prop :=
  ∀ s t : State, GateInv s → step s = .next t → GateInv t

/-- R73, R77 to R79, R88: every step keeps every channel record and every map setting in its range. -/
def Obligations.StepKeepsMapRanges : Prop :=
  ∀ s t : State, MapInv s → step s = .next t → MapInv t

/-- R47, R48, R51: every step keeps every tracker and every tracking setting in its range. -/
def Obligations.StepKeepsTrackerRanges : Prop :=
  ∀ s t : State, TrackerInv s → step s = .next t → TrackerInv t

/-- R1, R9, R15, R19, R20, R73: every step keeps the plans permitted and in range, the schedule's settings in range, a parked
front end without a current dwell, and the permitted fields the latched domain's. -/
def Obligations.StepKeepsSchedule : Prop :=
  ∀ s t : State, ScheduleInv s → step s = .next t → ScheduleInv t

/-- R108 to R110: every step keeps the planner's settings and counts in range. -/
def Obligations.StepKeepsPlannerRanges : Prop :=
  ∀ s t : State, PlannerInv s → step s = .next t → PlannerInv t

/-- The state after reset meets every invariant. -/
def Obligations.ResetMeetsInvariants : Prop :=
  EventsInv State.reset ∧ SilenceInv State.reset ∧ TableInv State.reset ∧ GateInv State.reset ∧ MapInv State.reset
  ∧ TrackerInv State.reset ∧ ScheduleInv State.reset ∧ PlannerInv State.reset

/-! ## Resets (chapter 9) -/

/-- R199, R201, R209: a full reset is in force after FULL_RESET, with ATTN released, no command in hand, no response, no
read transaction under way and no RESET PART pending; until its end no command but a further FULL_RESET or the
START_INSTANT has any effect. That a further FULL_RESET within a reset period keeps the start cause, and power at any
time makes it POWER_ON, is DEDUCED (log entry 28); the empty event set, and that AT too stands still, are the model's
choices (log entry 6), and so is the queue that is kept (log entry 5). -/
def Obligations.FullResetHoldsNothing : Prop :=
  (∀ (p : Bool) (s : State), ∃ t, exec (.fullReset p) s = .next t
    ∧ t.phase = .inReset (if p then .powerOn else match s.phase with
        | .running => .resetLine
        | .inReset c => c)
    ∧ t.events.set = [] ∧ t.events.attn = false ∧ t.host.inHand = none ∧ t.host.response = none
    ∧ t.host.resetPending = none ∧ t.host.reading = none ∧ t.pending = s.pending)
  ∧ ∀ (c : Instr) (s : State) (cause : StartCause), s.phase = .inReset cause → (∀ p, c ≠ .fullReset p) →
      (∀ d m, c ≠ .startInstant d m) → exec c s = .next s

/-- R200 to R202: at the start instant of a full reset the straps are latched and every block begins work from its reset
values, the corrections at 0 and the dwell id counter from 0. That a START_INSTANT while the part runs does nothing is the
model's choice (log entry 6), and so is the queue that is kept (log entry 5). -/
def Obligations.StartInstantBeginsWork : Prop :=
  (∀ (dom mains : BitVec 2) (cause : StartCause) (s : State), s.phase = .inReset cause →
    ∃ t, exec (.startInstant dom mains) s = .next t ∧ begunWork cause dom mains 0 t
      ∧ (∀ c, (t.chan c).correction = 0) ∧ t.pending = s.pending)
  ∧ ∀ (dom mains : BitVec 2) (s : State), s.phase = .running → exec (.startInstant dom mains) s = .next s

/-- R197, R198, R189: while RESET PART is pending, the deselection of a read transaction that returns the OK and the
deadline each carry out the reset: every block begins work as after a full reset, but for the straps, the corrections
and the dwell id counter, which are kept, and the start cause HOST_RESET. A read whose first byte came before the OK
was ready shifts out what stood then and resets nothing; either read shifts out 00h, then the frame of its first byte,
then 00h. That a read must shift one byte of the OK at least, and that a transaction under way outlives the deadline's
reset, are DEDUCED (log entry 8); a deadline not yet due does nothing, a late one resets late, the queue is kept, and
the bytes shifted out are: the model's choices (log entries 1, 2, 5, 11). -/
def Obligations.ResetPartCarriedOut : Prop :=
  ∀ (now deadline : AT) (extra : Nat) (s : State), s.phase = .running → s.host.resetPending = some deadline →
    let restarted : State → Prop := fun t => begunWork .hostReset s.host.dom s.host.mains s.ssc.nextId t
      ∧ (∀ c, (t.chan c).correction = (s.chan c).correction) ∧ t.pending = s.pending
    let kept := fun out => { s with now, host := { s.host with reading := none, shiftedOut := out } }
    let standing : List Byte := match s.host.response, s.host.inHand with
      | some r, _ => [BitVec.ofNat 8 r.code.code, r.command, BitVec.ofNat 8 r.payload.length] ++ r.payload
      | none, some c => [0x80, c.code, 0x00]
      | none, none => [0x80, 0x00, 0x00]
    (∀ frame ok, (s.host.reading = some ⟨frame, ok⟩ ∨ (s.host.reading = none ∧ frame = standing ∧ ok = true)) →
      (ok = true → 1 ≤ extra → ∃ t, exec (.readTransaction now (.deselection extra)) s = .next t ∧ restarted t
        ∧ t.host.reading = none ∧ shiftsOut extra frame t.host.shiftedOut)
      ∧ (ok = false → ∃ out, shiftsOut extra frame out
        ∧ exec (.readTransaction now (.deselection extra)) s = .next (kept out)))
    ∧ exec (.readTransaction now (.deselection 0)) s = .next (kept [0])
    ∧ (0 ≤ tdiff now deadline → ∃ t, exec (.resetPartDeadline now) s = .next t ∧ restarted t
      ∧ t.host.reading = s.host.reading ∧ t.host.shiftedOut = s.host.shiftedOut)
    ∧ (tdiff now deadline < 0 → exec (.resetPartDeadline now) s = .next (s.withNow now))

/-- R197, R196, R91, R107, R131: RESET PART makes its OK ready and RESET PART pending, with its deadline 100,000 µs later;
RESET MAP clears the map's learned state, the neighbour table and the planner's plans, in one handling, and leaves the rest
as it was. -/
def Obligations.ResetCommands : Prop :=
  ∀ (now : AT) (p : List Byte) (s : State),
    (s.inHandIs 0x03 p → exec (.resetPart now) s = .next
      { s.answered now 0x03 .ok [] with
        host := { (s.answered now 0x03 .ok []).host with resetPending := some (now + 100000) } })
    ∧ (s.inHandIs 0x04 p → ∃ t, exec (.resetMap now) s = .next t
      ∧ (∀ c, t.chan c = { s.chan c with
          floor := 40, busyFrame := 0, busyOven := 0, busyOther := 0, lastDwell := none, overRange := false
          underRange := false, ovenCost := 0, pressure := 0, load := 0 })
      ∧ t.omap = { s.omap with channels := t.omap.channels }
      ∧ t.ntab = { s.ntab with entries := [], lastCompletion := now, changeNumber := s.ntab.changeNumber + 1 }
      ∧ (∀ r, t.record r = { s.record r with sustain := 0, candidate := none, proposal := none })
      ∧ t.cpl = { s.cpl with records := t.cpl.records }
      ∧ t.host = (s.answered now 0x04 .ok []).host ∧ touchesOnly [.now, .host, .omap, .ntab, .cpl] s t)

/-! ## The host port (chapter 9) -/

/-- R185 to R187, R191: a write transaction's frame at its deselection: a well-formed one restarts the host-silence
timer and becomes the command in hand, or is lost as an overrun while a command is in hand or RESET PART is pending; a
malformed one counts as a frame error and changes nothing else. On every byte 00h is shifted out. The bytes shifted
out are kept as log entry 11 says. A transaction whose first byte is FFh is a read transaction, whichever row brings it
(DEDUCED, log entry 9). -/
def Obligations.WriteTransactionTakesFrame : Prop :=
  ∀ (now : AT) (code len : Byte) (payload : List Byte) (s : State), s.phase = .running → code ≠ 0xFF →
    let timer : Option AT := if s.host.limitS = 0 then none else some (now + BitVec.ofNat 32 (s.host.limitS * 1000000))
    (payload.length = len.toNat → s.host.inHand = none → s.host.resetPending = none →
      exec (.writeTransaction now (code :: len :: payload)) s = .next { s with
        now
        host := { s.host with
          timer, inHand := some ⟨code, payload, now⟩, response := none, taken := min 65535 (s.host.taken + 1)
          shiftedOut := List.replicate (payload.length + 2) 0 } })
    ∧ (payload.length = len.toNat → (s.host.inHand ≠ none ∨ s.host.resetPending ≠ none) →
      exec (.writeTransaction now (code :: len :: payload)) s = .next { s with
        now
        host := { s.host with
          timer, overruns := min 65535 (s.host.overruns + 1)
          shiftedOut := List.replicate (payload.length + 2) 0 } })
    ∧ (payload.length ≠ len.toNat →
      exec (.writeTransaction now (code :: len :: payload)) s = .next { s with
        now
        host := { s.host with
          frameErrors := min 65535 (s.host.frameErrors + 1), shiftedOut := List.replicate (payload.length + 2) 0 } })
    ∧ exec (.writeTransaction now [code]) s = .next { s with
        now, host := { s.host with frameErrors := min 65535 (s.host.frameErrors + 1), shiftedOut := [0] } }
    ∧ exec (.writeTransaction now []) s = .next (s.withNow now)
    ∧ exec (.writeTransaction now (0xFF :: payload)) s = exec (.readTransaction now (.deselection payload.length)) s

/-- R185, R189: a read transaction returns the response as it stands at its first byte: the ready response, or NOT READY
with the code of the command in hand, 00h when there is none. At its deselection, here without a RESET PART pending, it has
shifted out 00h, then that frame, then 00h, and it changes nothing else. That its first byte and its deselection are two
moments of one row, taken as one when the first is not sent, is the model's choice (log entry 8); the bytes shifted out
are kept as log entry 11 says. -/
def Obligations.ReadTransactionShiftsOutResponse : Prop :=
  ∀ (now : AT) (extra : Nat) (s : State), s.phase = .running →
    let standing : List Byte := match s.host.response, s.host.inHand with
      | some r, _ => [BitVec.ofNat 8 r.code.code, r.command, BitVec.ofNat 8 r.payload.length] ++ r.payload
      | none, some c => [0x80, c.code, 0x00]
      | none, none => [0x80, 0x00, 0x00]
    exec (.readTransaction now .firstByte) s = .next { s with
      now, host := { s.host with reading := some ⟨standing, s.host.resetPending.isSome⟩ } }
    ∧ ∀ frame, ((∃ ok, s.host.reading = some ⟨frame, ok⟩) ∨ (s.host.reading = none ∧ frame = standing)) →
      s.host.resetPending = none →
      ∃ out : List Byte,
        exec (.readTransaction now (.deselection extra)) s = .next { s with
          now, host := { s.host with reading := none, shiftedOut := out } }
        ∧ out.length = extra + 1 ∧ out.head? = some 0 ∧ ∀ i < extra, out[i + 1]? = some (frame.getD i 0)

/-- R188: a command of the catalogue whose payload is shorter than its arguments is answered BAD_ARGUMENT, without any other
effect; a code outside the catalogue is answered UNKNOWN_COMMAND, without any other effect. -/
def Obligations.ShortOrUnknownCommandRefused : Prop :=
  (∀ (now : AT) (s : State) (p : List Byte), ∀ row ∈ catalogueRows, p.length < row.2.1 → s.inHandIs row.1 p →
    exec (row.2.2 now) s = .next (s.answered now row.1 .badArgument []))
  ∧ ∀ (now : AT) (s : State) (code : Byte) (p : List Byte), (∀ row ∈ catalogueRows, row.1 ≠ code) →
    s.inHandIs code p → exec (.unknownCommand now) s = .next (s.answered now code .unknownCommand [])

/-- R193: SET HOST SILENCE stores the limit, at most 255 s, answers it, and runs the timer from the command's deselection, or
stops it. -/
def Obligations.SetHostSilenceStoresLimit : Prop :=
  ∀ (now d : AT) (a b : Byte) (rest : List Byte) (s : State), s.phase = .running →
    s.host.inHand = some ⟨0x05, a :: b :: rest, d⟩ →
    let n := min 255 (256 * a.toNat + b.toNat)
    exec (.setHostSilence now) s = .next
      { s.answered now 0x05 .ok [0, BitVec.ofNat 8 n] with
        host := { (s.answered now 0x05 .ok [0, BitVec.ofNat 8 n]).host with
          limitS := n, timer := if n = 0 then none else some (d + BitVec.ofNat 32 (n * 1000000)) } }

/-- R192, R128, R129: at the host-silence expiry the timer stops, HOST_SILENT is raised with the action as detail, and
the action is applied. KEEP does nothing. AUTO and DEFAULTS set the plan mode, AUTO or FIXED, and withdraw the standing
proposals when the mode changes. DEFAULTS first takes radio 0 and then radio 1: each that meets the conditions is
ordered to its default channel, and one that fails a condition gets no order. A stopped timer does nothing; a row not
yet due changes AT alone and a late one has its effect late: the model's choices (log entries 1, 2). -/
def Obligations.HostSilenceExpires : Prop :=
  ∀ (now : AT) (s : State), s.phase = .running →
    let raised := raise .hostSilent s.cpl.action.code { s with now, host := { s.host with timer := none } }
    let moded := fun (m : PlanMode) (u : State) => { u with cpl := { u.cpl with
      mode := m
      records := if u.cpl.mode = m then u.cpl.records
        else ⟨{ u.cpl.records.r0 with proposal := none }, { u.cpl.records.r1 with proposal := none }⟩ } }
    let meets : State → Radio → Chan → Chan → Prop := fun u r d cur =>
      (u.record r).defaultChan = some d ∧ (u.link r).chan = some cur ∧ gateServes (u.gate r) = true
      ∧ (u.record r).inFlight = none ∧ eligible u r d = true ∧ d ≠ cur
    let ordered : Radio → State → State → Prop := fun r u v =>
      (∀ d cur, meets u r d cur →
        let n := (u.record r).announce
        v = (u.setLink r { u.link r with sent := (u.link r).sent ++ [.switch d n] }).setRecord r { u.record r with
          sustain := 0, candidate := none, proposal := none, holding := false
          inFlight := some ⟨d, n, now + BitVec.ofNat 32 (n * 102400 + 1000000), .defaults, cur⟩ })
      ∧ ((∀ d cur, ¬ meets u r d cur) → v = u)
    (∀ e, s.host.timer = some e → 0 ≤ tdiff now e →
      (s.cpl.action = .keep → exec (.hostSilenceExpiry now) s = .next raised)
      ∧ (s.cpl.action = .auto → exec (.hostSilenceExpiry now) s = .next (moded .auto raised))
      ∧ (s.cpl.action = .defaults → ∃ v w, ordered .r0 raised v ∧ ordered .r1 v w
          ∧ exec (.hostSilenceExpiry now) s = .next (moded .fixed w)))
    ∧ (∀ e, s.host.timer = some e → tdiff now e < 0 → exec (.hostSilenceExpiry now) s = .next (s.withNow now))
    ∧ (s.host.timer = none → exec (.hostSilenceExpiry now) s = .next (s.withNow now))

/-! ## Events (chapter 10) -/

/-- R205: what raising an event does to a set that holds one entry of a kind at most, in kind-code order. -/
def Obligations.EventRaisedIsRecorded : Prop :=
  ∀ (k : EventKind) (d : Nat) (s : State), s.events.set.Pairwise (fun a b => a.kind.code < b.kind.code) →
    ((∀ e ∈ s.events.set, e.kind ≠ k) → ⟨k, 1, d, s.now⟩ ∈ (raise k d s).events.set)
    ∧ (∀ e ∈ s.events.set, e.kind = k → ⟨k, min 255 (e.count + 1), d, s.now⟩ ∈ (raise k d s).events.set)
    ∧ (∀ e e', e ∈ (raise k d s).events.set → e' ∈ (raise k d s).events.set → e.kind = k → e'.kind = k → e = e')
    ∧ (∀ e : EventEntry, e.kind ≠ k → (e ∈ (raise k d s).events.set ↔ e ∈ s.events.set))
    ∧ (raise k d s).events.attn = (s.events.attn || enabledIn s.events.mask k)
    ∧ touchesOnly [.events] s (raise k d s)

/-- R207 to R209: READ EVENTS returns every entry in the set's order, empties the set and releases ATTN; SET EVENT MASK
stores an enable for each of the 25 kinds, answers them, and sets ATTN to whether an enabled kind is pending. -/
def Obligations.EventCommands : Prop :=
  ∀ (now : AT) (s : State),
    (∀ p, s.inHandIs 0x08 p → exec (.readEvents now) s = .next
      { s.answered now 0x08 .ok (BitVec.ofNat 8 s.events.set.length :: s.events.set.flatMap fun e =>
          [BitVec.ofNat 8 e.kind.code, BitVec.ofNat 8 e.count, BitVec.ofNat 8 e.detail] ++ bAT e.latest) with
        events := { s.events with set := [], attn := false } })
    ∧ ∀ (a b c d : Byte) (rest : List Byte), s.inHandIs 0x09 (a :: b :: c :: d :: rest) →
      let m : BitVec 25 := (a ++ b ++ c ++ d).setWidth 25
      exec (.setEventMask now) s = .next
        { s.answered now 0x09 .ok [a &&& 0x01, b, c, d] with
          events := { s.events with mask := m, attn := s.events.set.any fun e => m.getLsbD (e.kind.code - 1) } }

/-! ## The schedule (chapter 1) -/

/-- R2: WRITE PLAN ENTRY, its checks in the table's order and its effect. -/
def Obligations.WritePlanEntryChecksAndWrites : Prop :=
  ∀ (now : AT) (pos ch dw : Byte) (rest : List Byte) (s : State), s.inHandIs 0x10 (pos :: ch :: dw :: rest) →
    let d := min 100 (max 1 dw.toNat)
    (s.ssc.armed = true → exec (.writePlanEntry now) s = .next (s.answered now 0x10 .busy []))
    ∧ (s.ssc.armed = false → 37 < ch.toNat →
        exec (.writePlanEntry now) s = .next (s.answered now 0x10 .badArgument []))
    ∧ ∀ c : Chan, c.val = ch.toNat → s.ssc.armed = false →
      ((s.chan c).permitted = false → exec (.writePlanEntry now) s = .next (s.answered now 0x10 .notPermitted []))
      ∧ ((s.chan c).permitted = true → (31 < pos.toNat ∨ s.ssc.plan.length < pos.toNat) →
        exec (.writePlanEntry now) s = .next (s.answered now 0x10 .badArgument []))
      ∧ ((s.chan c).permitted = true → pos.toNat ≤ 31 → pos.toNat < s.ssc.plan.length →
        exec (.writePlanEntry now) s = .next { s.answered now 0x10 .ok [BitVec.ofNat 8 d] with
          ssc := { s.ssc with plan := s.ssc.plan.set pos.toNat ⟨c, d⟩ } })
      ∧ ((s.chan c).permitted = true → pos.toNat ≤ 31 → pos.toNat = s.ssc.plan.length →
        exec (.writePlanEntry now) s = .next { s.answered now 0x10 .ok [BitVec.ofNat 8 d] with
          ssc := { s.ssc with plan := s.ssc.plan ++ [⟨c, d⟩] } })

/-- R3, R1, R8, R19: CLEAR PLAN empties the pending plan unless it is armed. COMMIT PLAN arms it within a round; between
rounds, and while no round runs, whether the front end is parked or not, it becomes the active plan at once, with
PLAN_APPLIED: an empty plan stops the sweep and starts its timer, or leaves the timer running, and a plan over an empty one
starts a round at once. A parked front end then meets a boundary when it has work, as it has after a plan over an empty one.
(Between rounds only a due instant that has not passed is meant; log entry 13.) -/
def Obligations.ClearAndCommitPlan : Prop :=
  ∀ (now : AT) (p : List Byte) (s : State),
    (s.inHandIs 0x11 p →
      (s.ssc.armed = true → exec (.clearPlan now) s = .next (s.answered now 0x11 .busy []))
      ∧ (s.ssc.armed = false → exec (.clearPlan now) s = .next
          { s.answered now 0x11 .ok [] with ssc := { s.ssc with plan := [] } }))
    ∧ (s.inHandIs 0x12 p →
      (s.ssc.phase = .running → exec (.commitPlan now) s = .next
          { s.answered now 0x12 .ok [] with ssc := { s.ssc with armed := true } })
      ∧ (∀ ended due, s.ssc.phase = .between ended due → tdiff now due ≤ 0 → s.ssc.armed = false →
          ∃ t, exec (.commitPlan now) s = .next t
            ∧ (raise .planApplied s.ssc.plan.length { s.answered now 0x12 .ok [] with
              ssc := { s.ssc with
                active := s.ssc.plan, plan := []
                phase := if s.ssc.plan = [] then .stopped (now + 1000000) else .between ended due
                position := if s.ssc.plan = [] then 0 else s.ssc.position } }).wakesTo t)
      ∧ (∀ fires, s.ssc.phase = .stopped fires → s.ssc.armed = false →
          ∃ t, exec (.commitPlan now) s = .next t
            ∧ (raise .planApplied s.ssc.plan.length { s.answered now 0x12 .ok [] with
              ssc := { s.ssc with
                active := s.ssc.plan, plan := [], position := 0
                phase := if s.ssc.plan = [] then .stopped fires else .running
                roundStart := if s.ssc.plan = [] then s.ssc.roundStart else now } }).wakesTo t)
      ∧ (∀ fires e es, s.ssc.phase = .stopped fires → s.ssc.armed = false → s.ssc.line = .parked →
          s.ssc.plan = e :: es → s.ssc.calQueue = [] → (∀ k, watchDue (s.withNow now) k = false) →
          ∃ t, exec (.commitPlan now) s = .next t ∧ t.ssc.active = e :: es ∧ t.ssc.roundStart = now
            ∧ t.ssc.sent = s.ssc.sent ++ [.tune s.ssc.nextId e.chan] ∧ t.ssc.line = .running
            ∧ t.ssc.current = some ⟨⟨.sweep, s.ssc.nextId, e.chan, e.dwellMs, none, false⟩, .ordered now⟩))

/-- R9, R20, R19: SET ROUND INTERVAL and SET WATCH store their values, brought into range, and answer them; between rounds the
next due instant follows the new interval. A parked front end meets a boundary when it has work by the new value, as when
the next round or a watch is then due. That a due instant so computed may lie in the past is DEDUCED (log entry 14); that
a round whose due instant has passed counts as started, which the premise on it leaves out, is log entry 13. -/
def Obligations.SetIntervalAndWatch : Prop :=
  ∀ (now : AT) (a b : Byte) (rest : List Byte) (s : State),
    let i := min 30000 (256 * a.toNat + b.toNat) / 5 * 5
    let w := min 5000 (max 100 (256 * a.toNat + b.toNat)) / 100 * 100
    (s.inHandIs 0x14 (a :: b :: rest) →
      (∀ phase, (s.ssc.phase = .running ∧ phase = .running)
          ∨ (∃ fires, s.ssc.phase = .stopped fires ∧ phase = .stopped fires)
          ∨ (∃ ended due, s.ssc.phase = .between ended due ∧ tdiff now due ≤ 0
            ∧ let next := s.ssc.roundStart + BitVec.ofNat 32 (i * 1000)
              phase = .between ended (if 0 ≤ tdiff next ended then next else ended)) →
        ∃ t, exec (.setRoundInterval now) s = .next t
          ∧ { s.answered now 0x14 .ok [BitVec.ofNat 8 (i / 256), BitVec.ofNat 8 i] with
              ssc := { s.ssc with intervalMs := i, phase } }.wakesTo t))
    ∧ (s.inHandIs 0x15 (a :: b :: rest) → ∃ t, exec (.setWatch now) s = .next t
        ∧ { s.answered now 0x15 .ok [BitVec.ofNat 8 (w / 256), BitVec.ofNat 8 w] with
            ssc := { s.ssc with watchMs := w } }.wakesTo t)

/-- R20, R18, R10, R5: a watch is due for a tracker that is not IDLE once its watch interval has passed since its last watch
start, or while it has none. What the arbiter orders at a dwell boundary outside FAULT: the next round starts first if it is due;
then a watch that is due, of the lowest tracker number, unless a round has entries left and the last three orders were
watches; then the head of the calibration queue; then the entry at the position of a round in progress; then PARK. A
TUNE or REFERENCE takes the next dwell id and becomes the current dwell; either order starts the close wait of an
ended dwell. The last three orders are counted as log entry 12 says. -/
def Obligations.ArbiterServesBoundary : Prop :=
  (∀ (s : State) (k : TrackerId), watchDue s k = true ↔ ∃ o, (s.tracker k).oven = some o
    ∧ ∀ start, s.ssc.lastWatch.get k = some start →
      (match o.phase with
        | .search _ => 100000
        | _ => (s.ssc.watchMs * 1000 : Nat)) ≤ tdiff s.now start)
  ∧ ∀ s : State, (∀ r, s.ssc.line ≠ .fault r) →
    let id := s.ssc.nextId
    let left : Prop := s.ssc.phase = .running ∧ s.ssc.position < s.ssc.active.length
    let waiting := s.ssc.ended.map fun e => { e with closeWait := some (e.closeWait.getD (s.now + 2000)) }
    let after := fun (d : Dwell) (run : Nat) (queue : List Chan) (o : SenseOrder) =>
      { s with ssc := { s.ssc with
          nextId := id + 1, current := some ⟨d, .ordered s.now⟩, ended := waiting, line := .running, watchRun := run
          calQueue := queue, sent := s.ssc.sent ++ [o] } }
    let noWatch : Prop := (∀ k, watchDue s k = false) ∨ (left ∧ 3 ≤ s.ssc.watchRun)
    (∀ ended due, s.ssc.phase = .between ended due → 0 ≤ tdiff s.now due → s.ssc.active ≠ [] →
      boundary s = boundary { s with ssc := { s.ssc with phase := .running, roundStart := due, position := 0 } })
    ∧ ((∀ ended due, s.ssc.phase = .between ended due → tdiff s.now due < 0 ∨ s.ssc.active = []) →
      (∀ k o, watchDue s k = true → (∀ j, trackerCode j < trackerCode k → watchDue s j = false) →
        (s.tracker k).oven = some o → (left → s.ssc.watchRun < 3) → ∀ c : Chan, c.val = (o.lo.val + o.hi.val) / 2 →
        boundary s = after ⟨.watch, id, c, 45, some k, false⟩ (min 3 (s.ssc.watchRun + 1)) s.ssc.calQueue (.tune id c))
      ∧ (∀ c rest, noWatch → s.ssc.calQueue = c :: rest →
        boundary s = after ⟨.reference, id, c, 2, none, decide (rest = [])⟩ 0 rest (.reference id c))
      ∧ (∀ e, noWatch → s.ssc.calQueue = [] → left → s.ssc.active[s.ssc.position]? = some e →
        boundary s = after ⟨.sweep, id, e.chan, e.dwellMs, none, false⟩ 0 [] (.tune id e.chan))
      ∧ (noWatch → s.ssc.calQueue = [] → ¬ left →
        boundary s = { s with ssc := { s.ssc with
          current := none, ended := waiting, line := .parked, watchRun := 0, sent := s.ssc.sent ++ [.park] } }))

/-- R11, R13, R17, R26: a READY with the ordered dwell's id opens it: ready AT, no timeouts, the watched tracker's last watch
start, an empty tally for a SWEEP or WATCH dwell; it clears a FAULT with SENSE_FAULT 0, and closes an ended dwell without a
report. Any other READY is discarded. That the dwell opens before the ended one closes is DEDUCED (log entry 21). -/
def Obligations.ReadyOpensDwell : Prop :=
  ∀ (now : AT) (s : State), s.phase = .running → s.ssc.resync = false →
    (∀ d at', s.ssc.current = some ⟨d, .ordered at'⟩ →
      let opened : Ssc := { s.ssc with
        current := some ⟨d, .opened now none⟩, timeouts := 0
        lastWatch := match d.watchFor with
          | some k => s.ssc.lastWatch.set k (some now)
          | none => s.ssc.lastWatch }
      let talliedBcl : Bcl := if d.kind = .reference then s.bcl
        else { s.bcl with tallies := s.bcl.tallies
          ++ [⟨d.id, d.kind, d.chan, now, d.lengthMs, ⟨0, 0, 0⟩, ⟨0, 0, 0, 0, 0⟩, false⟩] }
      let plain := fun (ended : Option Ended) => { s with now, ssc := { opened with ended }, bcl := talliedBcl }
      let cleared := fun (ended : Option Ended) =>
        raise .senseFault 0 { s with now, ssc := { opened with ended, line := .running }, bcl := talliedBcl }
      (s.ssc.ended = none → (∀ r, s.ssc.line ≠ .fault r) → exec (.ready now d.id) s = .next (plain none))
      ∧ (∀ r, s.ssc.ended = none → s.ssc.line = .fault r → exec (.ready now d.id) s = .next (cleared none))
      ∧ (∀ e, s.ssc.ended = some e →
        ((∀ r, s.ssc.line ≠ .fault r) → exec (.ready now d.id) s = .next
          (closeDwell e.dwell e.ready none e.completion (plain none)))
        ∧ (∀ r, s.ssc.line = .fault r → exec (.ready now d.id) s = .next
          (closeDwell e.dwell e.ready none e.completion (cleared none)))
        ∧ ∃ t, exec (.ready now d.id) s = .next t ∧ t.ssc.ended = none
        ∧ t.ssc.current = some ⟨d, .opened now none⟩ ∧ t.ssc.timeouts = 0
        ∧ (e.dwell.kind ≠ .reference → ∃ h, t.bcl.lastHandOver = some h ∧ h.id = e.dwell.id ∧ h.floorReport = none))
      ∧ (∀ id, id ≠ d.id → exec (.ready now id) s = .next (s.withNow now)))
    ∧ (∀ id d at' held, s.ssc.current = some ⟨d, .opened at' held⟩ → exec (.ready now id) s = .next (s.withNow now))
    ∧ (∀ id, s.ssc.current = none → exec (.ready now id) s = .next (s.withNow now))

/-- R13, R7: a CLOSE closes the ended dwell whose id it carries, with its report; one for the open current dwell is held, once;
any other is discarded. The close of a REFERENCE dwell hands its outcome on; the close of a round's last SWEEP dwell is
followed by the round completion, handed to the neighbour table, the map and the planner in that order. -/
def Obligations.CloseClosesOrIsHeld : Prop :=
  (∀ (now : AT) (id f r : Byte) (s : State), s.phase = .running → s.ssc.resync = false →
    (∀ e, s.ssc.ended = some e → e.dwell.id = id → exec (.close now id f r) s = .next
      (closeDwell e.dwell e.ready (some ⟨f, r⟩) e.completion { s with now, ssc := { s.ssc with ended := none } }))
    ∧ ((∀ e, s.ssc.ended = some e → e.dwell.id ≠ id) →
      (∀ d ready, s.ssc.current = some ⟨d, .opened ready none⟩ → d.id = id → exec (.close now id f r) s = .next
        { s with now, ssc := { s.ssc with current := some ⟨d, .opened ready (some ⟨f, r⟩)⟩ } })
      ∧ (∀ d ready rep, s.ssc.current = some ⟨d, .opened ready (some rep)⟩ →
        exec (.close now id f r) s = .next (s.withNow now))
      ∧ (∀ d ready held, s.ssc.current = some ⟨d, .opened ready held⟩ → d.id ≠ id →
        exec (.close now id f r) s = .next (s.withNow now))
      ∧ (∀ d at', s.ssc.current = some ⟨d, .ordered at'⟩ → exec (.close now id f r) s = .next (s.withNow now))
      ∧ (s.ssc.current = none → exec (.close now id f r) s = .next (s.withNow now))))
  ∧ ∀ (d : Dwell) (ready : AT) (rep : Option Report) (n : BitVec 16) (s : State),
    closeDwell d ready rep (some n) s = planningPass (mapPass n (tableCompletion (closeDwell d ready rep none s)))
    ∧ (d.kind = .reference → closeDwell d ready rep none s = calOutcome d (rep.map (·.rawRef)) s)

/-- R33, R34, R36 to R38, R60, R61, R74 to R76: what the close of a SWEEP or WATCH dwell with a tally hands over. The
covered time is the number of its instants that an entry of its band's recent-grant list covers. The last hand-over; the
channel's busy fractions when at least 1000 µs were observed, its floor when the close carries one, its last dwell and
its range flags, with RANGE when UNDER rises; no other channel changes. Each tracker drops its hit windows of the dwell;
a LOCKED one that covers the channel adds to its misses every window that lies within the dwell, that no covered instant
touches and that was not hit, and enters HOLDOVER, with OVEN_LOST, when they reach the miss limit. -/
def Obligations.CloseHandsDwellOver : Prop :=
  ∀ (d : Dwell) (ready : AT) (rep : Option Report) (tally : Tally) (s : State), d.kind ≠ .reference →
    s.bcl.tallies.find? (fun x => x.id = d.id) = some tally →
    let t := closeDwell d ready rep none s
    let length := d.lengthMs * 1000
    let isCovered := fun i : Nat => (s.recent (bandOf d.chan)).any fun e =>
      decide (tdiff e.start ready ≤ i ∧ (i : Int) < tdiff e.stop ready)
    let old := s.chan d.chan
    let new := t.chan d.chan
    let level : Option Nat := rep.map fun p => (min 240 (max 0 ((p.rawFloor.toNat : Int) + old.correction))).toNat
    let underRises : Bool := match rep with
      | none => false
      | some p => decide (p.rawFloor = 0) && !old.underRange
    let missed := fun o : Oven => (List.range (length + 1)).countP fun (a : Nat) =>
      decide (((a : Int) - tdiff o.anchor ready) % (o.period : Int) = 0 ∧ a + o.width ≤ length)
      && !(List.range o.width).any (fun i => isCovered (a + i))
      && !o.hitSets.any (fun h => h.id = d.id && h.starts.any fun w =>
        decide ((tdiff w (ready + BitVec.ofNat 32 a)).natAbs ≤ s.otk.settings.tolerance))
    let misses := fun o : Oven => min 15 (o.misses + missed o)
    let examined := fun o : Oven => decide (o.phase = .locked ∧ o.lo ≤ d.chan ∧ d.chan ≤ o.hi)
    let lost := fun o : Oven => examined o && decide (s.otk.settings.missLimit ≤ misses o)
    ∃ h, t.bcl = { s.bcl with tallies := s.bcl.tallies.filter (fun x => x.id ≠ d.id), lastHandOver := some h }
      ∧ h.id = d.id ∧ h.kind = d.kind ∧ h.chan = d.chan ∧ h.ready = ready ∧ h.lengthMs = d.lengthMs
      ∧ h.covered = (List.range length).countP isCovered ∧ h.observed = length - h.covered
      ∧ h.busy = tally.busy ∧ h.counts = tally.counts ∧ h.floorReport = level
      ∧ (1000 ≤ h.observed →
        let step := fun (old sum : Nat) =>
          ((old : Int) + Int.tdiv ((min 1000 (sum * 1000 / h.observed) : Nat) - (old : Int)) s.omap.divisor).toNat
        new.busyFrame = step old.busyFrame tally.busy.frame ∧ new.busyOven = step old.busyOven tally.busy.oven
        ∧ new.busyOther = step old.busyOther tally.busy.other)
      ∧ (h.observed < 1000 →
        new.busyFrame = old.busyFrame ∧ new.busyOven = old.busyOven ∧ new.busyOther = old.busyOther)
      ∧ new = { old with
        busyFrame := new.busyFrame, busyOven := new.busyOven, busyOther := new.busyOther
        floor := match level with
          | none => old.floor
          | some f => if f < old.floor then f else ((old.floor : Int) + Int.tdiv ((f : Int) - old.floor) 16).toNat
        lastDwell := some s.now
        overRange := old.overRange && tally.saturated
        underRange := match rep with
          | none => old.underRange
          | some p => decide (p.rawFloor = 0) }
      ∧ (∀ c, c ≠ d.chan → t.chan c = s.chan c) ∧ t.omap = { s.omap with channels := t.omap.channels }
      ∧ (∀ k, t.tracker k = { s.tracker k with oven := (s.tracker k).oven.map fun o => { o with
          hitSets := o.hitSets.filter fun h => h.id ≠ d.id
          misses := if examined o then misses o else o.misses
          phase := if lost o then .holdover s.now else o.phase } })
      ∧ t.otk.settings = s.otk.settings
      ∧ t.events = ((([.t0, .t1, .t2] : List TrackerId).filter fun k => (s.tracker k).oven.any lost).foldl
          (fun u k => raise .ovenLost (trackerCode k) u)
          (if underRises then raise .range d.chan.val s else s)).events
      ∧ touchesOnly [.bcl, .omap, .otk, .events] s t

/-- R12, R5, R6, R13, R1: at its end an open dwell becomes the ended dwell and a boundary follows; a held report closes the
dwell at its end. A SWEEP dwell's end visits its entry, and the visit of a round's last entry ends the round, with
ROUND_LATE when it is late and PLAN_APPLIED when a plan is armed; the round completion waits for the dwell's close.
Before its end nothing happens. The order visit, close, boundary is DEDUCED (log entry 21); a row not yet due, and a
dwell that ends late, are the model's choices (log entries 1, 2). -/
def Obligations.DwellEndsAtItsLength : Prop :=
  ∀ (now ready : AT) (d : Dwell) (held : Option Report) (s : State), s.phase = .running →
    s.ssc.current = some ⟨d, .opened ready held⟩ →
    let stop := ready + BitVec.ofNat 32 (d.lengthMs * 1000)
    let gone := { s with now, ssc := { s.ssc with current := none } }
    let finish := fun (n : Option (BitVec 16)) (u : State) => match held with
      | none => boundary { u with ssc := { u.ssc with ended := some ⟨d, ready, none, n⟩ } }
      | some rep => boundary (closeDwell d ready (some rep) n u)
    (tdiff now stop < 0 → exec (.dwellEnd now) s = .next (s.withNow now))
    ∧ (0 ≤ tdiff now stop →
      (d.kind ≠ .sweep → exec (.dwellEnd now) s = .next (finish none gone))
      ∧ (d.kind = .sweep → (s.ssc.phase ≠ .running ∨ s.ssc.position + 1 < s.ssc.active.length) →
        exec (.dwellEnd now) s = .next (finish none
          { gone with ssc := { gone.ssc with position := s.ssc.position + 1 } }))
      ∧ (d.kind = .sweep → s.ssc.phase = .running → s.ssc.active.length ≤ s.ssc.position + 1 →
        exec (.dwellEnd now) s = .next (finish (some (s.ssc.roundNumber + 1)) gone.roundEnded)))

/-- R15 to R17, R64, R43, R7: 2000 µs after its order a dwell that has not opened is skipped: a WATCH dwell's tracker takes
the order's instant as its last watch start, a REFERENCE dwell's outcome is no report, a SWEEP dwell's entry is visited,
and the visit of a round's last entry hands the completion on at the timeout. The first two timeouts in a row meet a
boundary; the third enters FAULT, with SENSE_FAULT 1, a retry 100 ms later, every LOCKED tracker in HOLDOVER with
OVEN_LOST 16 to 18, the calibration queue empty and a RUNNING run ended BAD; in FAULT no boundary follows. That the
outcome or the completion comes before the FAULT is the model's choice (log entry 21), as are a row not yet due and a
late one (log entries 1, 2). -/
def Obligations.TuneTimesOut : Prop :=
  ∀ (now orderAT : AT) (d : Dwell) (s : State), s.phase = .running → s.ssc.current = some ⟨d, .ordered orderAT⟩ →
    let last := match d.watchFor with
      | some k => s.ssc.lastWatch.set k (some orderAT)
      | none => s.ssc.lastWatch
    let timed := { s with now, ssc := { s.ssc with timeouts := min 3 (s.ssc.timeouts + 1), current := none } }
    let faulted : State → State → Prop := fun u t =>
      let isLocked := fun o : Oven => decide (o.phase = .locked)
      let lost := (([.t0, .t1, .t2] : List TrackerId).filter fun k => (u.tracker k).oven.any isLocked).foldl
        (fun v k => raise .ovenLost (trackerCode k + 16) v) (raise .senseFault 1 u)
      t.ssc = { u.ssc with line := .fault (now + 100000), calQueue := [] }
      ∧ (∀ k, t.tracker k = { u.tracker k with oven := (u.tracker k).oven.map fun o =>
          { o with phase := if o.phase = .locked then .holdover now else o.phase } })
      ∧ t.otk.settings = u.otk.settings
      ∧ (u.bcl.cal.status = .running →
        t.bcl = { u.bcl with cal := { u.bcl.cal with status := .bad, remaining := 0 } }
        ∧ t.events = (raise .calibration 2 lost).events)
      ∧ (u.bcl.cal.status ≠ .running → t.bcl = u.bcl ∧ t.events = lost.events)
      ∧ touchesOnly [.ssc, .otk, .bcl, .events] u t
    let follows : State → Prop := fun u =>
      ((∀ r, s.ssc.line ≠ .fault r) → s.ssc.timeouts ≤ 1 → exec (.tuneTimeout now) s = .next (boundary u))
      ∧ ((∀ r, s.ssc.line ≠ .fault r) → 2 ≤ s.ssc.timeouts →
        ∃ t, exec (.tuneTimeout now) s = .next t ∧ faulted u t)
      ∧ (∀ r, s.ssc.line = .fault r → exec (.tuneTimeout now) s = .next u)
    (tdiff now (orderAT + 2000) < 0 → exec (.tuneTimeout now) s = .next (s.withNow now))
    ∧ (0 ≤ tdiff now (orderAT + 2000) →
      (d.kind = .watch → follows { timed with ssc := { timed.ssc with lastWatch := last } })
      ∧ (d.kind = .reference → follows (calOutcome d none timed))
      ∧ (d.kind = .sweep → (s.ssc.phase ≠ .running ∨ s.ssc.position + 1 < s.ssc.active.length) →
        follows { timed with ssc := { timed.ssc with position := s.ssc.position + 1 } })
      ∧ (d.kind = .sweep → s.ssc.phase = .running → s.ssc.active.length ≤ s.ssc.position + 1 →
        follows (planningPass (mapPass (s.ssc.roundNumber + 1) (tableCompletion timed.roundEnded)))))

/-- R13, R17, R18: the close wait closes the ended dwell without a report. A retry in FAULT consults the arbiter: a round that
is due starts first; then a watch that is due, or else the entry at the position of a round in progress, has its TUNE
sent; when neither is there, between rounds, with an empty plan or past a round's last entry, nothing is sent; the next
retry is 100 ms later. (The calibration queue is empty in FAULT.) Before they are due nothing happens. A row not yet due
and a late one are the model's choices (log entries 1, 2), and the last three orders are counted as log entry 12 says. -/
def Obligations.CloseWaitAndFaultRetry : Prop :=
  ∀ (now : AT) (s : State), s.phase = .running →
    (∀ e w, s.ssc.ended = some e → e.closeWait = some w →
      (0 ≤ tdiff now w → exec (.closeWaitExpiry now) s = .next
        (closeDwell e.dwell e.ready none e.completion { s with now, ssc := { s.ssc with ended := none } }))
      ∧ (tdiff now w < 0 → exec (.closeWaitExpiry now) s = .next (s.withNow now)))
    ∧ ((s.ssc.ended.bind fun e => e.closeWait) = none → exec (.closeWaitExpiry now) s = .next (s.withNow now))
    ∧ (∀ r, s.ssc.line = .fault r →
      let id := s.ssc.nextId
      let left : Prop := s.ssc.phase = .running ∧ s.ssc.position < s.ssc.active.length
      let due := fun k => watchDue (s.withNow now) k
      let noWatch : Prop := (∀ k, due k = false) ∨ (left ∧ 3 ≤ s.ssc.watchRun)
      let retried := fun (d : Dwell) (run : Nat) => { s with
        now
        ssc := { s.ssc with
          nextId := id + 1, current := some ⟨d, .ordered now⟩
          ended := s.ssc.ended.map fun e => { e with closeWait := some (e.closeWait.getD (now + 2000)) }
          line := .fault (now + 100000), watchRun := run, sent := s.ssc.sent ++ [.tune id d.chan] } }
      (tdiff now r < 0 → exec (.faultRetry now) s = .next (s.withNow now))
      ∧ (0 ≤ tdiff now r →
        (∀ ended at', s.ssc.phase = .between ended at' → 0 ≤ tdiff now at' → s.ssc.active ≠ [] →
          exec (.faultRetry now) s = exec (.faultRetry now)
            { s with ssc := { s.ssc with phase := .running, roundStart := at', position := 0 } })
        ∧ ((∀ ended at', s.ssc.phase = .between ended at' → tdiff now at' < 0 ∨ s.ssc.active = []) →
          (∀ k o, due k = true → (∀ j, trackerCode j < trackerCode k → due j = false) →
            (s.tracker k).oven = some o → (left → s.ssc.watchRun < 3) → ∀ c : Chan, c.val = (o.lo.val + o.hi.val) / 2 →
            exec (.faultRetry now) s = .next (retried ⟨.watch, id, c, 45, some k, false⟩ (min 3 (s.ssc.watchRun + 1))))
          ∧ (noWatch → s.ssc.calQueue = [] →
            (∀ e, left → s.ssc.active[s.ssc.position]? = some e →
              exec (.faultRetry now) s = .next (retried ⟨.sweep, id, e.chan, e.dwellMs, none, false⟩ 0))
            ∧ (¬ left → exec (.faultRetry now) s = .next
              { s with now, ssc := { s.ssc with line := .fault (now + 100000) } })))))
    ∧ ((∀ r, s.ssc.line ≠ .fault r) → exec (.faultRetry now) s = .next (s.withNow now))

/-- R5, R7, R8, R19: at its due instant a round starts, and a parked front end meets a boundary; a watch that falls
due wakes a parked front end; the timer of an empty plan counts a round each 1000 ms and hands its completion to the
table, the map and the planner in that order. A row not yet due, and a late firing that counts on from its due
instant, are the model's choices (log entries 1, 2, 13). -/
def Obligations.RoundWatchAndEmptyPlanTimers : Prop :=
  ∀ (now : AT) (s : State), s.phase = .running →
    (∀ ended due, s.ssc.phase = .between ended due → 0 ≤ tdiff now due → s.ssc.active ≠ [] →
      let started := { s with now, ssc := { s.ssc with phase := .running, roundStart := due, position := 0 } }
      (s.ssc.line ≠ .parked → exec (.roundDue now) s = .next started)
      ∧ (s.ssc.line = .parked → exec (.roundDue now) s = .next (boundary started)))
    ∧ (∀ ended due, s.ssc.phase = .between ended due → tdiff now due < 0 → s.ssc.line ≠ .parked →
      exec (.roundDue now) s = .next (s.withNow now))
    ∧ (∀ k, s.ssc.line = .parked → watchDue (s.withNow now) k = true →
      exec (.watchDue now) s = .next (boundary (s.withNow now)))
    ∧ (s.ssc.line ≠ .parked → exec (.watchDue now) s = .next (s.withNow now))
    ∧ (∀ fires, s.ssc.phase = .stopped fires →
      (0 ≤ tdiff now fires → exec (.emptyPlanTimer now) s = .next
        (planningPass (mapPass (s.ssc.roundNumber + 1) (tableCompletion { s with
          now
          ssc := { s.ssc with roundNumber := s.ssc.roundNumber + 1, phase := .stopped (fires + 1000000) } }))))
      ∧ (tdiff now fires < 0 → exec (.emptyPlanTimer now) s = .next (s.withNow now)))
    ∧ (s.ssc.phase = .running → exec (.emptyPlanTimer now) s = .next (s.withNow now))

/-- R10, R23, R166: a sense record of unknown type or wrong length, and one cut short, are discarded; 1000 µs of idle
line make the next byte a header; until then every sense record is discarded. The idle time is the sender's word (log
entry 10). -/
def Obligations.SenseDiscardsAndResync : Prop :=
  ∀ (now : AT) (a b c : Byte) (off : BitVec 24) (dur : BitVec 16) (x y : Bool) (s : State), s.phase = .running →
    exec (.senseRecordDiscard now a b) s = .next (s.withNow now)
    ∧ exec (.senseTruncation now) s = .next (s.withNow now)
    ∧ exec (.senseResyncClear now) s = .next { s with now, ssc := { s.ssc with resync := false } }
    ∧ (s.ssc.resync = true → exec (.ready now a) s = .next (s.withNow now)
      ∧ exec (.burst now a off dur b x y) s = .next (s.withNow now) ∧ exec (.close now a b c) s = .next (s.withNow now))

/-! ## Reads -/

/-- R36, R44, R70, R89, R90, R105, R130, R161, R162, R181, R195, R4, R22: each read command answers OK with a payload of its
own fixed form and changes nothing else; an argument out of range is refused with BAD_ARGUMENT. READ SCHEDULE is here for a
schedule whose due round has not been passed over (log entry 13). The lengths follow the response layout (log entry 18); that
READ PLAN answers the armed flag for the ACTIVE plan too is log entry 19. -/
def Obligations.ReadsAnswerAndChangeNothing : Prop :=
  ∀ (now : AT) (s : State),
    (∀ p : List Byte, ∀ row ∈ ([(0x01, .readIdentity, 5), (0x02, .readStatus, 36), (0x22, .readCalibration, 86),
        (0x23, .readIntake, 36), (0x41, .readMap, 116), (0x65, .readPlanner, 97)] : List (Byte × (AT → Instr) × Nat)),
      s.inHandIs row.1 p → ∃ out : List Byte, out.length = row.2.2
        ∧ exec (row.2.1 now) s = .next (s.answered now row.1 .ok out))
    ∧ (∀ (a : Byte) (rest : List Byte), ∀ row ∈ ([(0x33, .readTracker, 3, 66), (0x40, .readChannel, 38, 35),
        (0x73, .readGate, 2, 27), (0x79, .readLink, 2, 29)] : List (Byte × (AT → Instr) × Nat × Nat)),
      s.inHandIs row.1 (a :: rest) →
      (a.toNat < row.2.2.1 → ∃ out : List Byte, out.length = row.2.2.2
        ∧ exec (row.2.1 now) s = .next (s.answered now row.1 .ok out))
      ∧ (row.2.2.1 ≤ a.toNat → exec (row.2.1 now) s = .next (s.answered now row.1 .badArgument [])))
    ∧ (∀ (a b : Byte) (rest : List Byte), s.inHandIs 0x50 (a :: b :: rest) →
      (a.toNat ≤ 63 ∧ 1 ≤ b.toNat ∧ b.toNat ≤ 6 → ∃ out : List Byte,
        out.length = 14 + 35 * min b.toNat (s.ntab.entries.length - a.toNat)
        ∧ exec (.readNeighbours now) s = .next (s.answered now 0x50 .ok out))
      ∧ (¬ (a.toNat ≤ 63 ∧ 1 ≤ b.toNat ∧ b.toNat ≤ 6) →
        exec (.readNeighbours now) s = .next (s.answered now 0x50 .badArgument [])))
    ∧ (∀ (a b c : Byte) (rest : List Byte), s.inHandIs 0x13 (a :: b :: c :: rest) →
      (a.toNat ≤ 1 ∧ b.toNat ≤ 31 ∧ 1 ≤ c.toNat ∧ c.toNat ≤ 8 → ∃ out : List Byte,
        out.length = 3 + 2 * min c.toNat ((if a = 0 then s.ssc.active else s.ssc.plan).length - b.toNat)
        ∧ exec (.readPlan now) s = .next (s.answered now 0x13 .ok out))
      ∧ (¬ (a.toNat ≤ 1 ∧ b.toNat ≤ 31 ∧ 1 ≤ c.toNat ∧ c.toNat ≤ 8) →
        exec (.readPlan now) s = .next (s.answered now 0x13 .badArgument [])))
    ∧ (∀ (a : Byte) (rest : List Byte), s.inHandIs 0x74 (a :: rest) →
      (a.toNat ≤ 1 → ∃ out : List Byte,
        out.length = 1 + 9 * (s.recent (if a = 0 then .ghz24 else .ghz5)).length
        ∧ exec (.readGrants now) s = .next (s.answered now 0x74 .ok out))
      ∧ (2 ≤ a.toNat → exec (.readGrants now) s = .next (s.answered now 0x74 .badArgument [])))
    ∧ (∀ p, s.inHandIs 0x16 p → (∀ ended due, s.ssc.phase = .between ended due → tdiff now due ≤ 0) →
      ∃ out : List Byte, out.length = 49 ∧ exec (.readSchedule now) s = .next (s.answered now 0x16 .ok out))

/-- R194, R195, R4, R22, R36, R44, R70, R89, R90, R105, R130, R161, R162, R181: each read command answers with the state it
reports, value by value, codes by the table of R184. The layout of values that are absent together, the margin byte, the
uncounted calibration pairs and the band and channel of a radio are the model's choices (log entry 18), as are the armed
flag for the ACTIVE plan (log entry 19), a host-silence timer or a bar that is due (log entry 29), the due instant left out
while the active plan is empty (log entry 30), the low four bytes of a busy sum that does not fit them (log entry 31) and
the schedule of a round that has been passed over (log entry 13). That READ CHANNEL sends the low four bytes of a
barred-until that does not fit them (log entry 23), and that a read answers as of the instant of its row, so also READ
TRACKER's next window (log entry 24), are DEDUCED. -/
def Obligations.ReadsReportTheState : Prop :=
  ∀ (now : AT) (s : State),
    let one := fun n : Nat => ([BitVec.ofNat 8 n] : List Byte)
    let two := fun n : Nat => one (n / 256) ++ one n
    let four := fun n : Nat => two (n / 65536) ++ two n
    let time := fun t : AT => four t.toNat
    let flag := fun b : Bool => one (if b then 1 else 0)
    let signed := fun i : Int => ([BitVec.ofInt 8 i] : List Byte)
    let chan := fun c : Chan => one c.val
    let opt := fun (width : Nat) (x : Option (List Byte)) => match x with
      | none => 0 :: List.replicate width 0
      | some bytes => 1 :: bytes
    let place := fun r : Radio => flag (s.link r).chan.isSome
      ++ opt 1 ((s.link r).chan.map fun c => one (if c.val ≤ 12 then 0 else 1)) ++ opt 1 ((s.link r).chan.map chan)
    (([.running, .parked, .fault 0] : List LineState).map (·.code) = [0, 1, 2]
      ∧ ([.idle, .running, .done, .bad] : List CalStatus).map (·.code) = [0, 1, 2, 3]
      ∧ ([.measure, .quick, .revert] : List CalMode).map (·.code) = [0, 1, 2]
      ∧ ([.sweep, .watch, .reference] : List DwellKind).map (·.code) = [0, 1, 2]
      ∧ ([.hz50, .hz60] : List Mains).map (·.code) = [0, 1] ∧ ([.auto, .fixed] : List GuardMode).map (·.code) = [0, 1]
      ∧ ([.avoid, .ignore] : List Policy).map (·.code) = [0, 1]
      ∧ ([.auto, .advise, .fixed] : List PlanMode).map (·.code) = [0, 1, 2]
      ∧ ([.keep, .auto, .defaults] : List SilenceAction).map (·.code) = [0, 1, 2]
      ∧ ([.planner, .host, .radar, .defaults] : List Source).map (·.code) = [0, 1, 2, 3]
      ∧ ([.host .gateOpen, .host .gateHeld, .host .gateBarred, .host .gateOff, .safe .gateOpen] :
        List GateState).map (·.code) = [0, 1, 2, 3, 4]
      ∧ ([.normal, .urgent] : List ReqClass).map (·.code) = [0, 1]
      ∧ ([.unknownType, .wrongLength, .truncated, .badChannel, .badBand] : List LinkErrorKind).map (·.code)
        = [1, 2, 3, 4, 5]
      ∧ ([.powerOn, .resetLine, .hostReset] : List StartCause).map (·.code) = [1, 2, 3]
      ∧ ∀ x : Tracker, trackerStateCode x = match x.oven.map (·.phase) with
        | none => 0
        | some (.search _) => 1
        | some .locked => 2
        | some (.holdover _) => 3)
    ∧ (∀ p, s.inHandIs 0x01 p → exec (.readIdentity now) s = .next
      (s.answered now 0x01 .ok [0x04, 0x30, 0x02, s.host.dom.setWidth 8, s.host.mains.setWidth 8]))
    ∧ (∀ p, s.inHandIs 0x02 p → exec (.readStatus now) s = .next (s.answered now 0x02 .ok
        (one s.host.cause.code ++ time now ++ one s.ssc.line.code ++ two s.omap.passRound.toNat
          ++ one s.bcl.cal.status.code ++ one (trackerStateCode (s.tracker .t0))
          ++ one (trackerStateCode (s.tracker .t1)) ++ one (trackerStateCode (s.tracker .t2))
          ++ one (s.gate .r0).mode.code ++ one (s.gate .r1).mode.code
          ++ flag (s.link .r0).chan.isSome ++ opt 1 ((s.link .r0).chan.map chan)
          ++ flag (s.link .r1).chan.isSome ++ opt 1 ((s.link .r1).chan.map chan)
          ++ one s.cpl.mode.code ++ flag (s.record .r0).inFlight.isSome ++ flag (s.record .r1).inFlight.isSome
          ++ two s.host.limitS ++ opt 4 (s.host.timer.map fun e => four (tdiff e now).toNat)
          ++ two s.host.taken ++ two s.host.frameErrors ++ two s.host.overruns)))
    ∧ (∀ (a b c : Byte) rest, s.inHandIs 0x13 (a :: b :: c :: rest) →
      a.toNat ≤ 1 → b.toNat ≤ 31 → 1 ≤ c.toNat → c.toNat ≤ 8 →
      let plan := if a = 0 then s.ssc.active else s.ssc.plan
      let entries := (plan.drop b.toNat).take c.toNat
      exec (.readPlan now) s = .next (s.answered now 0x13 .ok (one plan.length ++ flag s.ssc.armed
        ++ one entries.length ++ entries.flatMap fun e => chan e.chan ++ one e.dwellMs)))
    ∧ (∀ p, s.inHandIs 0x16 p → (∀ ended due, s.ssc.phase = .between ended due → tdiff now due ≤ 0) →
      exec (.readSchedule now) s = .next (s.answered now 0x16 .ok
        (one s.ssc.line.code ++ one s.ssc.timeouts ++ two s.ssc.roundNumber.toNat ++ time s.ssc.roundStart
          ++ opt 4 (match s.ssc.phase with
            | .between _ due => some (time due)
            | _ => none)
          ++ one s.ssc.position ++ one s.ssc.active.length ++ one s.ssc.plan.length ++ flag s.ssc.armed
          ++ two s.ssc.intervalMs ++ two s.ssc.watchMs
          ++ opt 9 (s.ssc.current.map fun x => one x.dwell.kind.code ++ [x.dwell.id] ++ chan x.dwell.chan
            ++ opt 4 (match x.cond with
              | .opened ready _ => some (time ready)
              | .ordered _ => none)
            ++ one x.dwell.lengthMs)
          ++ opt 1 (s.ssc.ended.map fun e => [e.dwell.id]) ++ one s.ssc.calQueue.length
          ++ opt 4 (s.ssc.lastWatch.t0.map time) ++ opt 4 (s.ssc.lastWatch.t1.map time)
          ++ opt 4 (s.ssc.lastWatch.t2.map time))))
    ∧ (∀ p, s.inHandIs 0x22 p → exec (.readCalibration now) s = .next (s.answered now 0x22 .ok
        (one s.bcl.cal.status.code ++ opt 1 (s.bcl.cal.mode.map fun m => one m.code)
          ++ one (s.bcl.cal.mask.toNat / 4294967296) ++ four s.bcl.cal.mask.toNat ++ one s.bcl.cal.remaining
          ++ flag s.bcl.cal.runBad ++ allChans.flatMap fun c => signed (s.chan c).correction ++ flag (s.chan c).bad)))
    ∧ (∀ p, s.inHandIs 0x23 p → exec (.readIntake now) s = .next (s.answered now 0x23 .ok
        (opt 35 (s.bcl.lastHandOver.map fun h => [h.id] ++ one h.kind.code ++ chan h.chan ++ time h.ready
          ++ one h.lengthMs ++ four h.observed ++ four h.covered ++ four h.busy.frame ++ four h.busy.oven
          ++ four h.busy.other ++ opt 1 (h.floorReport.map one) ++ one h.counts.own ++ one h.counts.weak
          ++ one h.counts.frame ++ one h.counts.oven ++ one h.counts.other))))
    ∧ (∀ (a : Byte) rest (k : TrackerId), s.inHandIs 0x33 (a :: rest) → a.toNat = trackerCode k →
      let x := s.tracker k
      let o := fun f : Oven → List Byte => x.oven.map f
      exec (.readTracker now) s = .next (s.answered now 0x33 .ok
        (one (trackerStateCode x) ++ opt 1 (o fun o => one o.candidate.code) ++ flag (x.oven.any (·.secondTried))
          ++ opt 2 (o fun o => two o.period) ++ opt 4 (o fun o => time o.anchor) ++ opt 4 (o fun o => time o.lastHit)
          ++ opt 2 (o fun o => two o.width) ++ opt 2 (o fun o => two o.guardUs)
          ++ opt 2 (o fun o => two (effectiveGuard s.otk.settings o)) ++ opt 2 (o fun o => two o.jitter)
          ++ one ((x.oven.map (·.hits)).getD 0) ++ one ((x.oven.map (·.misses)).getD 0)
          ++ opt 2 (o fun o => chan o.lo ++ chan o.hi)
          ++ opt 4 (x.oven.bind fun o => match o.phase with
            | .search b => some (time b)
            | _ => none)
          ++ opt 4 (x.oven.bind fun o => match o.phase with
            | .holdover b => some (time b)
            | _ => none)
          ++ opt 4 (x.oven.bind fun o => match o.phase with
            | .search b => some (time (b + 400000))
            | .locked => none
            | .holdover b => some (time (b + BitVec.ofNat 32 (s.otk.settings.holdoverMs * 1000))))
          ++ opt 4 (o fun o => time (now + BitVec.ofInt 32 (tdiff o.anchor now % (o.period : Int))))
          ++ one x.mode.code ++ two x.fixedGuard
          ++ two s.otk.settings.tolerance ++ one s.otk.settings.lockThreshold ++ one s.otk.settings.missLimit
          ++ two s.otk.settings.holdoverMs ++ two s.otk.settings.searchGuard ++ one s.otk.settings.policy.code)))
    ∧ (∀ (a : Byte) rest (c : Chan), s.inHandIs 0x40 (a :: rest) → a.toNat = c.val →
      let x := s.chan c
      exec (.readChannel now) s = .next (s.answered now 0x40 .ok
        (flag x.permitted ++ one x.floor ++ one (min 240 (x.floor + s.omap.margin)) ++ one s.omap.margin
          ++ two x.busyFrame ++ two x.busyOven ++ two x.busyOther ++ opt 4 (x.lastDwell.map time)
          ++ flag x.overRange ++ flag x.underRange ++ signed x.correction ++ flag x.bad
          ++ opt 6 (x.barredUntil.map fun u => four u ++ two (u - s.omap.barClock))
          ++ flag x.heldOut ++ two x.ovenCost ++ two x.pressure ++ two x.load ++ two s.omap.passRound.toNat)))
    ∧ (∀ p, s.inHandIs 0x41 p → ∃ out : List Byte, exec (.readMap now) s = .next (s.answered now 0x41 .ok out)
      ∧ out.length = 116
      ∧ out[0]? = some (s.omap.passRound.extractLsb' 8 8) ∧ out[1]? = some (s.omap.passRound.extractLsb' 0 8)
      ∧ ∀ c : Chan, out[2 + 3 * c.val]? = some (BitVec.ofNat 8 ((s.chan c).load / 256))
        ∧ out[3 + 3 * c.val]? = some (BitVec.ofNat 8 (s.chan c).load)
        ∧ ∃ f : Byte, out[4 + 3 * c.val]? = some f ∧ f.getLsbD 0 = (s.chan c).permitted
          ∧ f.getLsbD 1 = (s.chan c).overRange ∧ f.getLsbD 2 = (s.chan c).underRange ∧ f.getLsbD 3 = (s.chan c).bad
          ∧ f.getLsbD 4 = (s.chan c).barredUntil.isSome ∧ f.getLsbD 5 = (s.chan c).heldOut
          ∧ f.getLsbD 6 = false ∧ f.getLsbD 7 = false)
    ∧ (∀ (a b : Byte) rest, s.inHandIs 0x50 (a :: b :: rest) → a.toNat ≤ 63 → 1 ≤ b.toNat → b.toNat ≤ 6 →
      let entries := (s.ntab.entries.zipIdx.drop a.toNat).take b.toNat
      exec (.readNeighbours now) s = .next (s.answered now 0x50 .ok
        (one s.ntab.entries.length ++ two s.ntab.changeNumber.toNat ++ two s.ntab.ageLimit ++ time s.ntab.lastCompletion
          ++ four s.omap.barClock ++ one entries.length ++ entries.flatMap fun x => one x.2 ++ time x.1.network
            ++ chan x.1.chan ++ one x.1.level ++ two x.1.share ++ four x.1.accumulator
            ++ time x.1.first.instant ++ four x.1.first.second ++ time x.1.latest.instant ++ four x.1.latest.second
            ++ four (s.omap.barClock - x.1.latest.second) ++ one (radioCode x.1.reporter) ++ flag x.1.friendly)))
    ∧ (∀ p, s.inHandIs 0x65 p →
      let planner := fun r : Radio =>
        let x := s.record r
        place r ++ one (s.gate r).mode.code ++ one x.sustain ++ opt 1 (x.candidate.map chan)
          ++ opt 3 (x.lastBest.map fun b => chan b.1 ++ two b.2)
          ++ opt 7 (x.proposal.map fun q =>
            chan q.chan ++ two q.passRound.toNat ++ two q.loadCurrent ++ two q.loadProposed)
          ++ opt 8 (x.lastSwitch.map fun h => time h.instant ++ four h.second)
          ++ opt 8 (x.inFlight.map fun w =>
            chan w.target ++ one w.count ++ one w.source.code ++ chan w.fromChan ++ time w.deadline)
          ++ flag x.holding ++ opt 1 (x.defaultChan.map chan) ++ flag x.holdOnReturn ++ one x.announce
      exec (.readPlanner now) s = .next (s.answered now 0x65 .ok
        (one s.cpl.mode.code ++ two s.cpl.hysteresis ++ one s.cpl.sustainLimit ++ two s.cpl.minStay
          ++ one s.cpl.action.code ++ two s.omap.passRound.toNat ++ planner .r0 ++ planner .r1)))
    ∧ (∀ (a : Byte) rest (r : Radio), a.toNat = radioCode r →
      (s.inHandIs 0x73 (a :: rest) →
        let x := s.gate r
        exec (.readGate now) s = .next (s.answered now 0x73 .ok
          (one x.mode.code ++ opt 1 (match x.mode with
              | .safe m => some (one m.code)
              | .host _ => none)
            ++ two x.latency ++ opt 14 (x.slot.map fun g => [g.tag] ++ one g.cls.code ++ time g.start ++ two g.length
              ++ flag g.short ++ time g.expiry ++ flag g.listEntry)
            ++ flag s.agt.exclusion ++ flag (exclusionApplies s r) ++ place r)))
      ∧ (s.inHandIs 0x79 (a :: rest) →
        let x := s.link r
        exec (.readLink now) s = .next (s.answered now 0x79 .ok
          (place r ++ two x.limitMs ++ opt 4 (x.timer.map time) ++ flag x.silent ++ opt 4 (x.lastValid.map time)
            ++ two x.taken ++ two x.errors ++ opt 5 (x.lastError.map fun e => one e.1.code ++ time e.2)
            ++ flag x.resync))))
    ∧ (∀ (a : Byte) rest, s.inHandIs 0x74 (a :: rest) →
      (∀ b, a = (if b = Band.ghz24 then 0 else 1) → exec (.readGrants now) s = .next (s.answered now 0x74 .ok
        (one (s.recent b).length ++ (s.recent b).flatMap fun e =>
          (if e.radio = .r0 then 0x00 else 0x01) :: (time e.start ++ time e.stop))))
      ∧ (2 ≤ a.toNat → exec (.readGrants now) s = .next (s.answered now 0x74 .badArgument [])))

/-! ## Burst intake (chapter 2) -/

/-- R14, R24, R27, R28, R37: a burst of no dwell, of a REFERENCE dwell or beyond its dwell is discarded; an OWN burst adds to
the OWN count alone; a WEAK one adds to the WEAK count, and when saturated sets the saturated-seen mark and OVER, with RANGE
when OVER was clear. -/
def Obligations.BurstOwnWeakOrDiscarded : Prop :=
  ∀ (now : AT) (id : Byte) (off : BitVec 24) (dur : BitVec 16) (raw : Byte) (x y : Bool) (s : State),
    s.senses → s.ssc.line ≠ .parked →
    ((∀ d ready, ¬ s.burstFor id d ready) → exec (.burst now id off dur raw x y) s = .next (s.withNow now))
    ∧ ∀ d ready, s.burstFor id d ready →
      let start := ready + BitVec.ofNat 32 off.toNat
      (d.kind = .reference ∨ d.lengthMs * 1000 ≤ off.toNat →
        exec (.burst now id off dur raw x y) s = .next (s.withNow now))
      ∧ (d.kind ≠ .reference → off.toNat < d.lengthMs * 1000 →
        (s.burstOwn (bandOf d.chan) start dur.toNat → exec (.burst now id off dur raw x y) s = .next
          ((s.withNow now).onTally id fun t => { t with counts := { t.counts with own := min 255 (t.counts.own + 1) } }))
        ∧ (¬ s.burstOwn (bandOf d.chan) start dur.toNat → ¬ s.burstStrong d.chan raw →
          (raw.toNat < 240 → exec (.burst now id off dur raw x y) s = .next ((s.withNow now).onTally id fun t =>
            { t with counts := { t.counts with weak := min 255 (t.counts.weak + 1) } }))
          ∧ (240 ≤ raw.toNat → ∃ t, exec (.burst now id off dur raw x y) s = .next t
            ∧ t.bcl = (s.onTally id fun t => { t with
                saturated := true, counts := { t.counts with weak := min 255 (t.counts.weak + 1) } }).bcl
            ∧ t.omap = (s.setChan d.chan { s.chan d.chan with overRange := true }).omap
            ∧ t.events = (if (s.chan d.chan).overRange then s.events else (raise .range d.chan.val (s.withNow now)).events)
            ∧ touchesOnly [.now, .bcl, .omap, .events] s t)))

/-- R29, R37: on a 5 GHz channel a burst neither OWN nor WEAK is FRAME up to 5484 µs and OTHER beyond; its clipped duration and
one count are added to its class; the trackers are not offered it. A saturated one sets OVER, with
RANGE when OVER was clear. -/
def Obligations.FiveGhzBurstClassedByLength : Prop :=
  ∀ (now : AT) (id : Byte) (off : BitVec 24) (dur : BitVec 16) (raw : Byte) (x y : Bool) (s : State) (d : Dwell)
    (ready : AT), s.senses → s.burstFor id d ready → d.kind ≠ .reference → off.toNat < d.lengthMs * 1000 →
    13 ≤ d.chan.val → ¬ s.burstOwn .ghz5 (ready + BitVec.ofNat 32 off.toNat) dur.toNat → s.burstStrong d.chan raw →
    let us := min dur.toNat (d.lengthMs * 1000 - off.toNat)
    let seen := (s.withNow now).sawBurst d raw
    ∃ t, exec (.burst now id off dur raw x y) s = .next t ∧ t.otk = s.otk
      ∧ t.omap = seen.omap ∧ t.events = seen.events ∧ (s.ssc.line ≠ .parked → t.ssc = s.ssc)
      ∧ touchesOnly [.now, .ssc, .bcl, .omap, .events] s t
      ∧ t.bcl = (s.onTally id fun t =>
          let t := { t with saturated := t.saturated || decide (240 ≤ raw.toNat) }
          if dur.toNat ≤ 5484 then
            { t with
              counts := { t.counts with frame := min 255 (t.counts.frame + 1) }
              busy := { t.busy with frame := t.busy.frame + us } }
          else
            { t with
              counts := { t.counts with other := min 255 (t.counts.other + 1) }
              busy := { t.busy with other := t.busy.other + us } }).bcl

/-- R30, R31, R37, R52, R53, R19: on a 2.4 GHz channel a burst neither OWN nor WEAK is OTHER above 12000 µs and FRAME below 1000 µs;
one that no tracker matches is FRAME up to 5484 µs, and beyond it is OVEN and seeds the lowest-numbered IDLE tracker, or
raises TRACKERS_FULL with the channel. A saturated one sets OVER, with RANGE when OVER was clear. A burst of any kind taken
while the front end is PARKED has the same effect, and a boundary follows when work is then due, as the watch of a tracker
it seeds is. -/
def Obligations.TwoFourBurstsClassed : Prop :=
  ∀ (now : AT) (id : Byte) (off : BitVec 24) (dur : BitVec 16) (raw : Byte) (x y : Bool) (s : State) (d : Dwell)
    (ready : AT), s.senses → s.burstFor id d ready → d.kind ≠ .reference →
    (s.ssc.line = .parked → ∀ u,
      exec (.burst now id off dur raw x y) { s with ssc := { s.ssc with line := .running } } = .next u →
      let v := { u with ssc := { u.ssc with line := .parked } }
      let work : Prop := (∃ k, watchDue v k = true) ∨ v.ssc.calQueue ≠ []
        ∨ (v.ssc.phase = .running ∧ v.ssc.position < v.ssc.active.length)
        ∨ (∃ ended due, v.ssc.phase = .between ended due ∧ 0 ≤ tdiff now due ∧ v.ssc.active ≠ [])
      (work → exec (.burst now id off dur raw x y) s = .next (boundary v))
      ∧ (¬ work → exec (.burst now id off dur raw x y) s = .next v))
    ∧ (s.ssc.line ≠ .parked → off.toNat < d.lengthMs * 1000 → d.chan.val ≤ 12 → s.burstStrong d.chan raw →
    let us := min dur.toNat (d.lengthMs * 1000 - off.toNat)
    let start := ready + BitVec.ofNat 32 off.toNat
    let n := dur.toNat
    let seen := (s.withNow now).sawBurst d raw
    let oven := seen.onTally id fun t => { t with
      counts := { t.counts with oven := min 255 (t.counts.oven + 1) }, busy := { t.busy with oven := t.busy.oven + us } }
    let noMatch := ∀ k o, (s.tracker k).oven = some o → s.otk.settings.tolerance < (phaseError o start).natAbs
    ¬ s.burstOwn .ghz24 start n →
    (12000 < n → exec (.burst now id off dur raw x y) s = .next (seen.onTally id fun t => { t with
      counts := { t.counts with other := min 255 (t.counts.other + 1) }
      busy := { t.busy with other := t.busy.other + us } }))
    ∧ (n < 1000 ∨ (n ≤ 5484 ∧ noMatch) →
      exec (.burst now id off dur raw x y) s = .next (seen.onTally id fun t => { t with
        counts := { t.counts with frame := min 255 (t.counts.frame + 1) }
        busy := { t.busy with frame := t.busy.frame + us } }))
    ∧ (5485 ≤ n → n ≤ 12000 → noMatch →
      ((∀ k, (s.tracker k).oven ≠ none) →
        exec (.burst now id off dur raw x y) s = .next (raise .trackersFull d.chan.val oven))
      ∧ ∀ k, (s.tracker k).oven = none → (∀ j, trackerCode j < trackerCode k → (s.tracker j).oven ≠ none) →
        let first := if s.host.mains.toNat ≤ 1 then Mains.hz50 else .hz60
        exec (.burst now id off dur raw x y) s = .next (oven.setTracker k { s.tracker k with oven := some {
            phase := .search now, candidate := first, secondTried := false
            period := if s.host.mains.toNat ≤ 1 then 20000 else 16667
            anchor := start, lastHit := start
            width := if x || y then 8000 else min 12000 (max 3000 n)
            guardUs := if (s.tracker k).mode = .fixed then (s.tracker k).fixedGuard else 200
            jitter := 0, hits := 1, misses := 0, lo := d.chan, hi := d.chan, hitSets := [⟨id, [start]⟩] } })))

/-- R50, R51, R54 to R57, R37: a 2.4 GHz burst of 1000 to 12000 µs is taken by the matching tracker of least error, the lowest
number first: its period, anchor, previous hit, width, jitter, guard, span, counts, hit windows and state step as the hit
update says, no other tracker changes, and the burst counts as OVEN. A saturated one sets OVER, with RANGE when OVER was
clear. -/
def Obligations.HitUpdatesTracker : Prop :=
  ∀ (now : AT) (id : Byte) (off : BitVec 24) (dur : BitVec 16) (raw : Byte) (x y : Bool) (s : State) (d : Dwell)
    (ready : AT) (k : TrackerId) (o : Oven), s.senses → s.ssc.line ≠ .parked → s.burstFor id d ready →
    d.kind ≠ .reference → off.toNat < d.lengthMs * 1000 → d.chan.val ≤ 12 → s.burstStrong d.chan raw →
    1000 ≤ dur.toNat → dur.toNat ≤ 12000 → (s.tracker k).oven = some o →
    let start := ready + BitVec.ofNat 32 off.toNat
    let e := phaseError o start
    ¬ s.burstOwn .ghz24 start dur.toNat → e.natAbs ≤ s.otk.settings.tolerance →
    (∀ j p, j ≠ k → (s.tracker j).oven = some p →
      e.natAbs < (phaseError p start).natAbs
      ∨ (e.natAbs = (phaseError p start).natAbs ∧ trackerCode k < trackerCode j)) →
    let us := min dur.toNat (d.lengthMs * 1000 - off.toNat)
    let delta := tdiff start o.lastHit
    let n := (delta.toNat + o.period / 2) / o.period
    let band := if o.candidate = .hz50 then (19600, 20400) else (16334, 17000)
    let seen := (s.withNow now).sawBurst d raw
    let w := start + BitVec.ofInt 32 (-e)
    let add := fun starts : List AT =>
      if (starts.any fun x => decide ((tdiff x w).natAbs ≤ s.otk.settings.tolerance)) = true ∨ 8 ≤ starts.length then starts
      else starts ++ [w]
    ∃ t q, exec (.burst now id off dur raw x y) s = .next t
      ∧ (t.tracker k).oven = some q ∧ (t.tracker k).mode = (s.tracker k).mode
      ∧ (t.tracker k).fixedGuard = (s.tracker k).fixedGuard ∧ (∀ j, j ≠ k → t.tracker j = s.tracker j)
      ∧ q.period = (if 0 < delta ∧ 1 ≤ n ∧ n ≤ 50 then
          min band.2 (max band.1 ((o.period : Int) + Int.tdiv (((delta.toNat / n : Nat) : Int) - o.period) 8).toNat)
        else o.period)
      ∧ q.anchor = (match o.phase with
        | .search _ => start
        | _ => start + BitVec.ofInt 32 (-e) + BitVec.ofInt 32 (Int.tdiv e 4))
      ∧ q.lastHit = start
      ∧ q.width = (if x || y then o.width
        else min 12000 (max 3000 ((o.width : Int) + Int.tdiv ((dur.toNat : Int) - o.width) 4).toNat))
      ∧ q.jitter = min 2000 ((o.jitter : Int) + Int.tdiv ((e.natAbs : Int) - o.jitter) 8).toNat
      ∧ q.guardUs = (if (s.tracker k).mode = .fixed then (s.tracker k).fixedGuard
        else min 2000 (max 100 (2 * q.jitter + 200)))
      ∧ q.lo.val = min d.chan.val o.lo.val ∧ q.hi.val = max d.chan.val o.hi.val
      ∧ q.hits = min 15 (o.hits + 1) ∧ q.misses = 0 ∧ q.candidate = o.candidate ∧ q.secondTried = o.secondTried
      ∧ q.hitSets = (if (o.hitSets.any fun h => decide (h.id = id)) = true then
          o.hitSets.map fun h => if h.id = id then { h with starts := add h.starts } else h
        else (if 2 ≤ o.hitSets.length then o.hitSets.tail else o.hitSets) ++ [⟨id, [w]⟩])
      ∧ (∀ b, o.phase = .search b → q.hits < s.otk.settings.lockThreshold →
          q.phase = .search b ∧ t.events = seen.events)
      ∧ (∀ b, o.phase = .search b → s.otk.settings.lockThreshold ≤ q.hits →
          q.phase = .locked ∧ t.events = (raise .ovenLocked (trackerCode k) seen).events)
      ∧ (o.phase = .locked → q.phase = .locked ∧ t.events = seen.events)
      ∧ (∀ b, o.phase = .holdover b →
          q.phase = .locked ∧ t.events = (raise .ovenBack (trackerCode k) seen).events)
      ∧ t.bcl = (seen.onTally id fun t => { t with
          counts := { t.counts with oven := min 255 (t.counts.oven + 1) }
          busy := { t.busy with oven := t.busy.oven + us } }).bcl
      ∧ t.otk.settings = s.otk.settings ∧ t.omap = seen.omap
      ∧ touchesOnly [.now, .bcl, .otk, .omap, .events] s t

/-- R49: with d = s - A as a signed value, the phase error e and the window index k satisfy d = kP + e with e from
-((P - 1) div 2) to P div 2, the only such pair; s - e is the start of window k, and the burst matches when |e| is at most
the tolerance. -/
def Obligations.PhaseErrorIsNearest : Prop :=
  ∀ (o : Oven) (start : AT), 0 < o.period →
    let e := phaseError o start
    let k := windowIndex o start
    tdiff start o.anchor = k * o.period + e ∧ -(((o.period - 1) / 2 : Nat) : Int) ≤ e ∧ e ≤ ((o.period / 2 : Nat) : Int)
    ∧ (∀ e' k' : Int, tdiff start o.anchor = k' * o.period + e' → -(((o.period - 1) / 2 : Nat) : Int) ≤ e' →
        e' ≤ ((o.period / 2 : Nat) : Int) → e' = e ∧ k' = k)
    ∧ windowStart o start = o.anchor + BitVec.ofInt 32 (k * o.period)
    ∧ ∀ tolerance : Nat, matchesOven tolerance o start = true ↔ e.natAbs ≤ tolerance

/-! ## Calibration (chapter 2) -/

/-- R39, R40, R44, R21, R43, R19: CALIBRATE is refused BUSY while a run is RUNNING, and BAD_ARGUMENT for an unknown mode or a
mask that names no channel or one above 37; MEASURE queues every masked channel and QUICK the lowest of each band; a parked
front end meets a boundary at once, and in FAULT the queue is emptied and the run ends BAD at once, with CALIBRATION 2 and
nothing remaining; REVERT clears the masked channels' corrections at once. That the rows CALIBRATE and
CALIBRATE_REVERT handle a REVERT frame alike is the model's choice (log entry 7). WRITE CORRECTION stores the clamped
correction. -/
def Obligations.CalibrationCommands : Prop :=
  ∀ (now : AT) (a b c d e m : Byte) (rest : List Byte) (s : State),
    let mask : BitVec 40 := a ++ b ++ c ++ d ++ e
    let named := allChans.filter fun x => mask.getLsbD x.val
    (s.inHandIs 0x20 (a :: b :: c :: d :: e :: m :: rest) →
      (s.bcl.cal.status = .running → exec (.calibrate now) s = .next (s.answered now 0x20 .busy []))
      ∧ (s.bcl.cal.status ≠ .running → (2 < m.toNat ∨ mask = 0 ∨ 2 ^ 38 ≤ mask.toNat) →
        exec (.calibrate now) s = .next (s.answered now 0x20 .badArgument []))
      ∧ (s.bcl.cal.status ≠ .running → mask ≠ 0 → mask.toNat < 2 ^ 38 → ∀ mode queue,
        (m = 0 ∧ mode = .measure ∧ queue = named) ∨ (m = 1 ∧ mode = .quick
          ∧ queue = (named.find? fun x => x.val ≤ 12).toList ++ (named.find? fun x => 12 < x.val).toList) →
        let u := { s.answered now 0x20 .ok [] with
          bcl := { s.bcl with cal := ⟨.running, some mode, mask, queue.length, false⟩ }
          ssc := { s.ssc with calQueue := queue } }
        (s.ssc.line = .running → exec (.calibrate now) s = .next u)
        ∧ (s.ssc.line = .parked → exec (.calibrate now) s = .next (boundary u))
        ∧ ∀ retry, s.ssc.line = .fault retry → exec (.calibrate now) s = .next (raise .calibration 2
          { s.answered now 0x20 .ok [] with
            bcl := { s.bcl with cal := ⟨.bad, some mode, mask, 0, false⟩ }
            ssc := { s.ssc with calQueue := [] } }))
      ∧ (s.bcl.cal.status ≠ .running → mask ≠ 0 → mask.toNat < 2 ^ 38 → m = 2 →
        exec (.calibrate now) s = exec (.calibrateRevert now) s
        ∧ ∃ t, exec (.calibrateRevert now) s = .next t
          ∧ (∀ x, t.chan x = if mask.getLsbD x.val then { s.chan x with correction := 0 } else s.chan x)
          ∧ t.omap = { s.omap with channels := t.omap.channels }
          ∧ t.bcl = { s.bcl with cal := ⟨.done, some .revert, mask, 0, false⟩ }
          ∧ t.events = (raise .calibration 1 (s.withNow now)).events ∧ t.host = (s.answered now 0x20 .ok []).host
          ∧ touchesOnly [.now, .host, .omap, .bcl, .events] s t))
    ∧ (s.inHandIs 0x21 (a :: b :: rest) →
      (38 ≤ a.toNat → exec (.writeCorrection now) s = .next (s.answered now 0x21 .badArgument []))
      ∧ ∀ x : Chan, x.val = a.toNat →
        (s.bcl.cal.status = .running → exec (.writeCorrection now) s = .next (s.answered now 0x21 .busy []))
        ∧ (s.bcl.cal.status ≠ .running →
          let v := min 15 (max (-16) b.toInt)
          exec (.writeCorrection now) s = .next
            ((s.answered now 0x21 .ok [BitVec.ofInt 8 v]).setChan x { s.chan x with correction := v })))

/-- R41 to R43: the CLOSE of an ended REFERENCE dwell while a run is RUNNING: a raw reference level of 105 to 136 sets the
correction 120 - level and clears BAD on the run's channels for it, and any other level sets BAD; the run counts down, and
its last outcome ends it DONE or BAD with CALIBRATION 1 or 2. An outcome without a report, by the next READY, the close
wait or a tune timeout, sets BAD there, keeps the corrections and makes the run bad. While no run is RUNNING an outcome is
discarded. -/
def Obligations.ReferenceCloseGivesOutcome : Prop :=
  let on : State → Dwell → Chan → Prop := fun s d c => match s.bcl.cal.mode with
    | some .measure => c = d.chan
    | some .quick => s.bcl.cal.mask.getLsbD c.val = true ∧ bandOf c = bandOf d.chan
    | _ => False
  (∀ (now : AT) (id f r : Byte) (ready : AT) (d : Dwell) (wait : Option AT) (s : State), s.senses →
    s.ssc.ended = some ⟨d, ready, wait, none⟩ → d.id = id → d.kind = .reference → s.bcl.cal.status = .running →
    let inRange : Prop := 105 ≤ r.toNat ∧ r.toNat ≤ 136
    let bad := s.bcl.cal.runBad || decide (¬ (105 ≤ r.toNat ∧ r.toNat ≤ 136))
    ∃ t, exec (.close now id f r) s = .next t
      ∧ (∀ c, on s d c → inRange → t.chan c = { s.chan c with correction := 120 - (r.toNat : Int), bad := false })
      ∧ (∀ c, on s d c → ¬ inRange → t.chan c = { s.chan c with bad := true })
      ∧ (∀ c, ¬ on s d c → t.chan c = s.chan c)
      ∧ t.bcl = { s.bcl with cal := { s.bcl.cal with
          remaining := s.bcl.cal.remaining - 1, runBad := bad
          status := if d.last = true then (if bad = true then .bad else .done) else .running } }
      ∧ t.events = (if d.last = true then (raise .calibration (if bad = true then 2 else 1) (s.withNow now)).events
          else s.events)
      ∧ t.ssc = { s.ssc with ended := none }
      ∧ touchesOnly [.now, .ssc, .omap, .bcl, .events] s t)
  ∧ (∀ (d : Dwell) (s : State), s.bcl.cal.status = .running →
    let t := calOutcome d none s
    (∀ c, on s d c → t.chan c = { s.chan c with bad := true }) ∧ (∀ c, ¬ on s d c → t.chan c = s.chan c)
    ∧ t.bcl = { s.bcl with cal := { s.bcl.cal with
        remaining := s.bcl.cal.remaining - 1, runBad := true, status := if d.last = true then .bad else .running } }
    ∧ t.events = (if d.last = true then (raise .calibration 2 s).events else s.events)
    ∧ touchesOnly [.omap, .bcl, .events] s t)
  ∧ (∀ (d : Dwell) (m : Option Byte) (s : State), s.bcl.cal.status ≠ .running → calOutcome d m s = s)
  ∧ ∀ (now ready : AT) (d : Dwell) (wait : Option AT) (s : State), s.phase = .running →
    s.ssc.ended = some ⟨d, ready, wait, none⟩ → d.kind = .reference →
    (∀ w, wait = some w → 0 ≤ tdiff now w → exec (.closeWaitExpiry now) s = .next
      (calOutcome d none { s with now, ssc := { s.ssc with ended := none } }))
    ∧ ∀ d' at', s.ssc.resync = false → s.ssc.current = some ⟨d', .ordered at'⟩ → (∀ r, s.ssc.line ≠ .fault r) →
      ∃ u, exec (.ready now d'.id) s = .next (calOutcome d none u)
        ∧ u.bcl.cal = s.bcl.cal ∧ touchesOnly [.now, .ssc, .bcl] s u

/-! ## Oven tracking (chapter 3) -/

/-- R48, R68, R71, R58, R62, R11, R15: the trackers' commands store clamped settings and answer them, or refuse a code or
number out of range; RESTART TRACKER returns a tracker to IDLE; a search times out 400 ms after its start, to the other
mains candidate when the hint allows both and it has not been tried, else to IDLE; a holdover expires to IDLE, at SET
TRACKING too when its expiry has passed by the new holdover time, with OVEN_GONE. A tracker that enters IDLE has no last
watch start, and a watch dwell in hand is no longer for it. A row not yet due, a late one that has its effect late, a
holdover expiry that falls exactly at SET TRACKING, and the tracker-number order of those that one SET TRACKING ends, are
the model's choices (log entries 1, 2, 15). -/
def Obligations.TrackerCommandsAndTimers : Prop :=
  ∀ (now : AT) (s : State),
    let forWatch : (TrackerId → Bool) → Option Current := fun gone => s.ssc.current.map fun c =>
      if c.dwell.watchFor.any gone = true then { c with dwell := { c.dwell with watchFor := none } } else c
    let idled : TrackerId → Ssc := fun k => { s.ssc with
      lastWatch := s.ssc.lastWatch.set k none, current := forWatch fun j => decide (j = k) }
    (∀ a b c d e f g h p rest, s.inHandIs 0x30 (a :: b :: c :: d :: e :: f :: g :: h :: p :: rest) →
      (2 ≤ p.toNat → exec (.setTracking now) s = .next (s.answered now 0x30 .badArgument []))
      ∧ ∀ policy : Policy, p = (if policy = .avoid then 0 else 1) →
        let tol := min 2000 (max 200 (256 * a.toNat + b.toNat))
        let lock := min 15 (max 3 c.toNat)
        let miss := min 15 (max 2 d.toNat)
        let hold := min 60000 (256 * e.toNat + f.toNat)
        let search := min 2000 (max 100 (256 * g.toNat + h.toNat))
        (∀ k o b, (s.tracker k).oven = some o → o.phase = .holdover b →
          tdiff now (b + BitVec.ofNat 32 (hold * 1000)) ≤ 0) →
        exec (.setTracking now) s = .next { s.answered now 0x30 .ok
            (b2 tol ++ [BitVec.ofNat 8 lock, BitVec.ofNat 8 miss] ++ b2 hold ++ b2 search ++ [p]) with
          otk := { s.otk with settings := ⟨tol, lock, miss, hold, search, policy⟩ } })
    ∧ (∀ a b c d e f g h p rest, s.inHandIs 0x30 (a :: b :: c :: d :: e :: f :: g :: h :: p :: rest) →
      ∀ policy : Policy, p = (if policy = .avoid then 0 else 1) →
        let hold := min 60000 (256 * e.toNat + f.toNat)
        let gone : TrackerId → Bool := fun k => (s.tracker k).oven.any fun o => match o.phase with
          | .holdover start => decide (0 < tdiff now (start + BitVec.ofNat 32 (hold * 1000)))
          | .search _ => false
          | .locked => false
        ∃ t out, exec (.setTracking now) s = .next t
          ∧ t.otk.settings = ⟨min 2000 (max 200 (256 * a.toNat + b.toNat)), min 15 (max 3 c.toNat),
              min 15 (max 2 d.toNat), hold, min 2000 (max 100 (256 * g.toNat + h.toNat)), policy⟩
          ∧ out = b2 t.otk.settings.tolerance ++ [BitVec.ofNat 8 t.otk.settings.lockThreshold,
              BitVec.ofNat 8 t.otk.settings.missLimit] ++ b2 hold ++ b2 t.otk.settings.searchGuard ++ [p]
          ∧ t.host = (s.answered now 0x30 .ok out).host
          ∧ (∀ k, t.tracker k = if gone k = true then { s.tracker k with oven := none } else s.tracker k)
          ∧ (∀ k, t.ssc.lastWatch.get k = if gone k = true then none else s.ssc.lastWatch.get k)
          ∧ t.ssc = { s.ssc with lastWatch := t.ssc.lastWatch, current := forWatch gone }
          ∧ t.events = ((([.t0, .t1, .t2] : List TrackerId).filter gone).foldl
              (fun v k => raise .ovenGone (trackerCode k) v) (s.withNow now)).events
          ∧ touchesOnly [.now, .host, .otk, .ssc, .events] s t)
    ∧ (∀ a b c d rest, s.inHandIs 0x31 (a :: b :: c :: d :: rest) →
      (3 ≤ a.toNat ∨ 2 ≤ b.toNat → exec (.setTracker now) s = .next (s.answered now 0x31 .badArgument []))
      ∧ ∀ k mode, trackerCode k = a.toNat → b = (if mode = GuardMode.auto then 0 else 1) →
        let g := min 2000 (max 100 (256 * c.toNat + d.toNat))
        exec (.setTracker now) s = .next ((s.answered now 0x31 .ok (b2 g)).setTracker k
          ⟨(s.tracker k).oven.map fun o => { o with guardUs := g }, mode, g⟩))
    ∧ (∀ a rest, s.inHandIs 0x32 (a :: rest) →
      (3 ≤ a.toNat → exec (.restartTracker now) s = .next (s.answered now 0x32 .badArgument []))
      ∧ ∀ k, trackerCode k = a.toNat → ∃ t, exec (.restartTracker now) s = .next t
        ∧ t.tracker k = { s.tracker k with oven := none } ∧ (∀ j, j ≠ k → t.tracker j = s.tracker j)
        ∧ t.ssc = idled k ∧ t.host = (s.answered now 0x32 .ok []).host
        ∧ touchesOnly [.now, .host, .otk, .ssc] s t)
    ∧ (s.phase = .running → ∀ k o b, (s.tracker k).oven = some o →
      (o.phase = .search b →
        (tdiff now (b + 400000) < 0 → exec (.searchTimeout now k) s = .next (s.withNow now))
        ∧ (0 ≤ tdiff now (b + 400000) →
          ((s.host.mains = 0 ∨ s.host.mains = 3) → o.secondTried = false →
            exec (.searchTimeout now k) s = .next ((s.withNow now).setTracker k { s.tracker k with oven := some { o with
              phase := .search now, secondTried := true, hits := 1
              candidate := if o.candidate = .hz50 then .hz60 else .hz50
              period := if o.candidate = .hz50 then 16667 else 20000 } }))
          ∧ (¬ (s.host.mains = 0 ∨ s.host.mains = 3) ∨ o.secondTried = true →
            ∃ t, exec (.searchTimeout now k) s = .next t ∧ t.tracker k = { s.tracker k with oven := none }
              ∧ (∀ j, j ≠ k → t.tracker j = s.tracker j) ∧ t.ssc = idled k
              ∧ t.events = (raise .searchFailed (trackerCode k) (s.withNow now)).events)))
      ∧ (o.phase = .holdover b →
        let due := b + BitVec.ofNat 32 (s.otk.settings.holdoverMs * 1000)
        (tdiff now due < 0 → exec (.holdoverExpiry now k) s = .next (s.withNow now))
        ∧ (0 ≤ tdiff now due →
          ∃ t, exec (.holdoverExpiry now k) s = .next t ∧ t.tracker k = { s.tracker k with oven := none }
            ∧ (∀ j, j ≠ k → t.tracker j = s.tracker j) ∧ t.ssc = idled k
            ∧ t.events = (raise .ovenGone (trackerCode k) (s.withNow now)).events)))

/-! ## The occupancy map (chapter 4) -/

/-- R77 to R79, R88, R82, R81: the map's settings are stored clamped, or refused, and answered; BAR CHANNEL and UNBAR
set and clear the held-out flag alone; the bar clock rises by one each 1,000,000 µs; a radar bar ends when the clock
reaches its barred-until. A row not yet due, and a late rise that counts on from its due instant, are the model's
choices (log entries 1, 2). -/
def Obligations.MapCommandsAndTimers : Prop :=
  ∀ (now : AT) (s : State),
    (∀ (a : Byte) rest, s.inHandIs 0x42 (a :: rest) →
      (a.toNat ∈ [2, 4, 8, 16] → exec (.setAveraging now) s = .next
        { s.answered now 0x42 .ok [a] with omap := { s.omap with divisor := a.toNat } })
      ∧ (a.toNat ∉ [2, 4, 8, 16] → exec (.setAveraging now) s = .next (s.answered now 0x42 .badArgument [])))
    ∧ (∀ (a : Byte) rest, s.inHandIs 0x43 (a :: rest) →
      exec (.setMargin now) s = .next
        { s.answered now 0x43 .ok [BitVec.ofNat 8 (min 40 a.toNat)] with
          omap := { s.omap with margin := min 40 a.toNat } })
    ∧ (∀ (a b c : Byte) rest, s.inHandIs 0x44 (a :: b :: c :: rest) →
      let w := min 200 (256 * a.toNat + b.toNat)
      exec (.setWeights now) s = .next
        { s.answered now 0x44 .ok (b2 w ++ [BitVec.ofNat 8 (min 240 c.toNat)]) with
          omap := { s.omap with weight := w, pressureThreshold := min 240 c.toNat } })
    ∧ (∀ (a b : Byte) rest, s.inHandIs 0x45 (a :: b :: rest) →
      let t := min 3600 (max 60 (256 * a.toNat + b.toNat))
      exec (.setBarTime now) s = .next
        { s.answered now 0x45 .ok (b2 t) with omap := { s.omap with barTime := t } })
    ∧ (∀ row ∈ ([(0x46, .barChannel, true), (0x47, .unbar, false)] : List (Byte × (AT → Instr) × Bool)),
      ∀ (a : Byte) rest, s.inHandIs row.1 (a :: rest) →
      (38 ≤ a.toNat → exec (row.2.1 now) s = .next (s.answered now row.1 .badArgument []))
      ∧ ∀ c : Chan, c.val = a.toNat → exec (row.2.1 now) s = .next
          ((s.answered now row.1 .ok []).setChan c { s.chan c with heldOut := row.2.2 }))
    ∧ (s.phase = .running →
      (let due := s.omap.lastRise + 1000000
       (tdiff now due < 0 → exec (.barClockTick now) s = .next (s.withNow now))
       ∧ (0 ≤ tdiff now due → exec (.barClockTick now) s = .next { s with
          now, omap := { s.omap with barClock := min 4294967295 (s.omap.barClock + 1), lastRise := due } }))
      ∧ ∀ c,
        (∀ u, (s.chan c).barredUntil = some u → u ≤ s.omap.barClock →
          exec (.radarBarExpiry now c) s = .next ((s.withNow now).setChan c { s.chan c with barredUntil := none }))
        ∧ (∀ u, (s.chan c).barredUntil = some u → s.omap.barClock < u →
          exec (.radarBarExpiry now c) s = .next (s.withNow now))
        ∧ ((s.chan c).barredUntil = none → exec (.radarBarExpiry now c) s = .next (s.withNow now)))

/-- R84 to R87: a planning pass in the map stores each channel's oven cost, pressure and load, and the pass round, nothing
else. -/
def Obligations.PassStoresLoads : Prop :=
  ∀ (n : BitVec 16) (s : State) (c : Chan),
    let x := s.chan c
    let cost := min 1000 (([.t0, .t1, .t2] : List TrackerId).map fun k => match (s.tracker k).oven with
      | some o =>
        if protecting s.otk.settings.policy .normal o = true ∧ o.lo ≤ c ∧ c ≤ o.hi then
          ((o.width + 2 * o.guardUs) * 1000 + o.period - 1) / o.period else 0
      | none => 0).sum
    let w := s.omap.weight
    let pressure := min 1000 (s.ntab.entries.map fun e =>
      if e.friendly = true ∨ e.level < s.omap.pressureThreshold then 0
      else if e.chan = c then w + e.share / 2
      else if c.val ≤ 12 ∧ e.chan.val ≤ 12 ∧ c.val < e.chan.val + 5 ∧ e.chan.val < c.val + 5 then w / 2 + e.share / 4
      else 0).sum
    (mapPass n s).chan c = { x with
      ovenCost := cost, pressure, load := min 1000 (x.busyFrame + x.busyOther + max x.busyOven cost + pressure) }
    ∧ (mapPass n s).omap = { s.omap with channels := (mapPass n s).omap.channels, passRound := n }
    ∧ touchesOnly [.omap] s (mapPass n s)

/-! ## The neighbour table (chapter 5) -/

/-- R95 to R98, R167: an OVERHEARD of a key in the table refreshes its entry and moves it to the head; of a new key it makes
an entry at the head, marked friendly when an entry of the network that remains is; a full table loses its tail first, with
NEIGHBOUR_EVICTED; a channel above 37 is a link error. -/
def Obligations.OverheardReportTaken : Prop :=
  ∀ (now : AT) (r : Radio) (network : BitVec 32) (b raw : Byte) (airtime : BitVec 32) (s : State), s.listens r →
    let u := s.tookRecord now r
    (38 ≤ b.toNat → exec (.overheard now r network b raw airtime) s = .next (u.withLinkError r .badChannel))
    ∧ ∀ c : Chan, c.val = b.toNat →
      let level := (min 240 (max 0 ((raw.toNat : Int) + (s.chan c).correction))).toNat
      let here : Heard := ⟨now, s.omap.barClock⟩
      let made : List Neighbour → Neighbour := fun kept => ⟨network, c, level, 0, airtime.toNat, here, here, r,
        kept.any fun e => e.network = network && e.friendly⟩
      (∀ pre e post, s.ntab.entries = pre ++ e :: post → e.network = network → e.chan = c →
        (∀ x ∈ pre ++ post, ¬ (x.network = network ∧ x.chan = c)) →
        exec (.overheard now r network b raw airtime) s = .next { u with
          ntab := { s.ntab with
            entries := { e with
              level, accumulator := min 4294967295 (e.accumulator + airtime.toNat), latest := here, reporter := r }
              :: (pre ++ post)
            changeNumber := s.ntab.changeNumber + 1 } })
      ∧ ((∀ x ∈ s.ntab.entries, ¬ (x.network = network ∧ x.chan = c)) →
        (s.ntab.entries.length < 64 → exec (.overheard now r network b raw airtime) s = .next { u with
          ntab := { s.ntab with
            entries := made s.ntab.entries :: s.ntab.entries, changeNumber := s.ntab.changeNumber + 1 } })
        ∧ (∀ init tail, s.ntab.entries = init ++ [tail] → 64 ≤ s.ntab.entries.length →
          exec (.overheard now r network b raw airtime) s = .next (raise .neighbourEvicted tail.chan.val { u with
            ntab := { s.ntab with entries := made init :: init, changeNumber := s.ntab.changeNumber + 1 } })))

/-- R103, R104, R100 to R102: SET NEIGHBOUR AGE stores the clamped limit; MARK FRIENDLY sets or clears the flag of a network's
entries and answers how many changed; a round completion moves each share a quarter of the way, clears the accumulators,
and drops aged entries from the tail up to the first that is not aged. -/
def Obligations.NeighbourCommandsAndAgeing : Prop :=
  ∀ (now : AT) (s : State),
    (∀ (a b : Byte) rest, s.inHandIs 0x52 (a :: b :: rest) →
      let n := min 3600 (max 10 (256 * a.toNat + b.toNat))
      exec (.setNeighbourAge now) s = .next
        { s.answered now 0x52 .ok (b2 n) with ntab := { s.ntab with ageLimit := n } })
    ∧ (∀ (a b c d f : Byte) rest, s.inHandIs 0x51 (a :: b :: c :: d :: f :: rest) →
      let network : BitVec 32 := a ++ b ++ c ++ d
      (2 ≤ f.toNat → exec (.markFriendly now) s = .next (s.answered now 0x51 .badArgument []))
      ∧ ∀ on : Bool, f = (if on then 1 else 0) →
        let n := s.ntab.entries.countP fun e => e.network = network && e.friendly ≠ on
        exec (.markFriendly now) s = .next { s.answered now 0x51 .ok [BitVec.ofNat 8 n] with
          ntab := { s.ntab with
            entries := s.ntab.entries.map fun e => if e.network = network then { e with friendly := on } else e
            changeNumber := if n = 0 then s.ntab.changeNumber else s.ntab.changeNumber + 1 } })
    ∧ (∃ kept dropped,
      kept ++ dropped = (s.ntab.entries.map fun e => { e with
        share := ((e.share : Int) + Int.tdiv ((min 1000
          (e.accumulator * 1000 / (max 1000 (tdiff s.now s.ntab.lastCompletion)).toNat) : Nat) - (e.share : Int)) 4).toNat
        accumulator := 0 })
      ∧ (∀ e ∈ dropped, s.ntab.ageLimit < s.omap.barClock - e.latest.second)
      ∧ (∀ e, kept.getLast? = some e → s.omap.barClock - e.latest.second ≤ s.ntab.ageLimit)
      ∧ tableCompletion s = { s with
          ntab := { s.ntab with
            entries := kept, lastCompletion := s.now, changeNumber := s.ntab.changeNumber + 1 } })

/-! ## The planner (chapter 6) -/

/-- R111, R112: what makes a channel eligible for a radio, and the best eligible channel: of the least stored load, the
lowest index among equals; none when no channel is eligible. Two 2.4 GHz channels are separated when they differ by 5 or
more, two 5 GHz channels when they differ, and channels of different bands always. -/
def Obligations.BestEligibleIsLeastLoaded : Prop :=
  (∀ c d : Chan, separated c d = true ↔
    (c.val ≤ 12 → d.val ≤ 12 → c.val + 5 ≤ d.val ∨ d.val + 5 ≤ c.val) ∧ (13 ≤ c.val → 13 ≤ d.val → c ≠ d))
  ∧ ∀ (s : State) (r : Radio),
    (∀ c, eligible s r c = true ↔ ∃ cur, (s.link r).chan = some cur ∧ bandOf c = bandOf cur
      ∧ (s.chan c).permitted = true ∧ (s.chan c).barredUntil = none ∧ (s.chan c).heldOut = false
      ∧ (∀ d, (s.link (otherRadio r)).chan = some d → separated c d = true)
      ∧ ∀ w, (s.record (otherRadio r)).inFlight = some w → separated c w.target = true)
    ∧ (∀ b, bestOf s r = some b ↔ eligible s r b = true ∧ ∀ c, eligible s r c = true →
        (s.chan b).load < (s.chan c).load ∨ ((s.chan b).load = (s.chan c).load ∧ b ≤ c))
    ∧ (bestOf s r = none ↔ ∀ c, eligible s r c = false)

/-- R113 to R117, R119, R125: the planning pass takes radio 0 and then radio 1. The step of one radio: nothing while it is
UNKNOWN, switching, or its gate OFF or SAFE; on a radar-barred channel a radar move, to the best with an announce count
of 1, or NO_CHANNEL. A HOLDING radio not yet on its best, or without one, notes the best alone; else the sustain test,
and past the sustain limit and the minimum stay the action of the plan mode: an order in AUTO, a proposal in ADVISE,
nothing in FIXED. Without an eligible channel the sustain count and the candidate are dropped. -/
def Obligations.PlanningStepSustainsAndActs : Prop :=
  (∀ s : State, planningPass s = planRadio .r1 (planRadio .r0 s))
  ∧ ∀ (s : State) (r : Radio),
    ((s.link r).chan = none ∨ (s.record r).inFlight ≠ none ∨ gateServes (s.gate r) = false → planRadio r s = s)
    ∧ ∀ cur, (s.link r).chan = some cur → (s.record r).inFlight = none → gateServes (s.gate r) = true →
      ((s.chan cur).barredUntil ≠ none →
        (bestOf s r = none → planRadio r s = raise .noChannel (radioCode r) s)
        ∧ ∀ best, bestOf s r = some best → planRadio r s =
          (s.setLink r { s.link r with sent := (s.link r).sent ++ [.switch best 1] }).setRecord r { s.record r with
            sustain := 0, candidate := none, proposal := none
            inFlight := some ⟨best, 1, s.now + 1102400, .radar, cur⟩ })
      ∧ ((s.chan cur).barredUntil = none → bestOf s r = none → s.cpl.sustainLimit ≠ 0 →
        ((s.record r).holding = true → planRadio r s = s.setRecord r { s.record r with lastBest := none })
        ∧ ((s.record r).holding = false → planRadio r s = s.setRecord r { s.record r with
          lastBest := none, sustain := 0, candidate := none }))
      ∧ ∀ best, (s.chan cur).barredUntil = none → bestOf s r = some best →
      let noted := { s.record r with lastBest := some (best, (s.chan best).load) }
      let gain : Prop := best ≠ cur
        ∧ (s.chan best).load + s.cpl.hysteresis ≤ if (s.chan cur).permitted then (s.chan cur).load else 1000
      let n := if (s.record r).candidate = some best then min 15 ((s.record r).sustain + 1) else 1
      let stayed : Prop := ∀ h, (s.record r).lastSwitch = some h → h.second + s.cpl.minStay ≤ s.omap.barClock
      ((s.record r).holding = true → best ≠ cur → planRadio r s = s.setRecord r noted)
      ∧ ((s.record r).holding = false ∨ best = cur →
        (¬ gain → s.cpl.sustainLimit ≠ 0 →
          planRadio r s = s.setRecord r { noted with holding := false, sustain := 0, candidate := none })
        ∧ (gain → (n < s.cpl.sustainLimit ∨ ¬ stayed ∨ s.cpl.mode = .fixed) →
          planRadio r s = s.setRecord r { noted with holding := false, sustain := n, candidate := some best })
        ∧ (gain → s.cpl.sustainLimit ≤ n → stayed → s.cpl.mode = .auto → ∃ t, planRadio r s = t
          ∧ t.record r = { noted with
              holding := false, sustain := 0, candidate := none, proposal := none
              inFlight := some ⟨best, (s.record r).announce,
                s.now + BitVec.ofNat 32 ((s.record r).announce * 102400 + 1000000), .planner, cur⟩ }
          ∧ t.link r = { s.link r with sent := (s.link r).sent ++ [.switch best (s.record r).announce] }
          ∧ touchesOnly [.links, .cpl] s t)
        ∧ (gain → s.cpl.sustainLimit ≤ n → stayed → s.cpl.mode = .advise → ∃ t, planRadio r s = t
          ∧ t.record r = { noted with
              holding := false, sustain := 0, candidate := none
              proposal := some ⟨best, s.omap.passRound, (s.chan cur).load, (s.chan best).load⟩ }
          ∧ t.events = (if (s.record r).proposal.map (·.chan) = some best then s.events
              else (raise .proposal (radioCode r) s).events)
          ∧ touchesOnly [.cpl, .events] s t))

/-- R109, R110, R127: SET PLANNER stores and answers its five settings, and a change to AUTO or FIXED withdraws the
standing proposals; SET RADIO stores and answers the radio's three; CLEAR HOLD clears HOLDING; codes and numbers out
of range are refused with BAD_ARGUMENT. The presence byte of the answered default channel is the model's choice (log
entry 19). -/
def Obligations.PlannerSettings : Prop :=
  ∀ (now : AT) (s : State),
    (∀ (a b c d e f g : Byte) rest, s.inHandIs 0x60 (a :: b :: c :: d :: e :: f :: g :: rest) →
      (3 ≤ a.toNat ∨ 3 ≤ g.toNat → exec (.setPlanner now) s = .next (s.answered now 0x60 .badArgument []))
      ∧ ∀ (m : PlanMode) (act : SilenceAction), m.code = a.toNat → act.code = g.toNat →
        let h := min 1000 (256 * b.toNat + c.toNat)
        let l := min 15 (max 1 d.toNat)
        let st := min 3600 (256 * e.toNat + f.toNat)
        ∃ t, exec (.setPlanner now) s = .next t
          ∧ t.host = (s.answered now 0x60 .ok ([a] ++ b2 h ++ [BitVec.ofNat 8 l] ++ b2 st ++ [g])).host
          ∧ t.cpl = { records := t.cpl.records, mode := m, hysteresis := h, sustainLimit := l, minStay := st, action := act }
          ∧ (∀ r, t.record r = if m ≠ s.cpl.mode ∧ m ≠ .advise then { s.record r with proposal := none } else s.record r)
          ∧ touchesOnly [.now, .host, .cpl] s t)
    ∧ (∀ (a b c d : Byte) rest, s.inHandIs 0x61 (a :: b :: c :: d :: rest) →
      (2 ≤ a.toNat ∨ (38 ≤ b.toNat ∧ b ≠ 0xFF) ∨ 2 ≤ c.toNat →
        exec (.setRadio now) s = .next (s.answered now 0x61 .badArgument []))
      ∧ ∀ (r : Radio) (ch : Option Chan) (on : Bool), radioCode r = a.toNat →
        b.toNat = (ch.map (·.val)).getD 0xFF → c = (if on then 1 else 0) →
        let n := min 15 (max 1 d.toNat)
        exec (.setRadio now) s = .next
          ((s.answered now 0x61 .ok ((match ch with
              | some x => [1, BitVec.ofNat 8 x.val]
              | none => [0, 0]) ++ [c, BitVec.ofNat 8 n])).setRecord r
            { s.record r with defaultChan := ch, holdOnReturn := on, announce := n }))
    ∧ (∀ (a : Byte) rest, s.inHandIs 0x64 (a :: rest) →
      (2 ≤ a.toNat → exec (.clearHold now) s = .next (s.answered now 0x64 .badArgument []))
      ∧ ∀ r, radioCode r = a.toNat → exec (.clearHold now) s = .next
          ((s.answered now 0x64 .ok []).setRecord r { s.record r with holding := false }))

/-- R119 to R121, R123: SET CHANNEL, its checks in the table's order and its order with source HOST; ACCEPT PROPOSAL
does the same for the standing proposal's channel with the announce count, and is refused WRONG_STATE without one; at
its deadline a switch in flight fails with SWITCH_FAILED. A row not yet due and a late one that has its effect late are
the model's choices (log entries 1, 2). -/
def Obligations.HostSwitchOrders : Prop :=
  ∀ (now : AT) (s : State) (r : Radio),
    let checked : Instr → Byte → Chan → Nat → Prop := fun i code c count =>
      ((s.link r).chan = none ∨ gateServes (s.gate r) = false ∨ (s.record r).inFlight ≠ none →
        exec i s = .next (s.answered now code .wrongState []))
      ∧ ∀ cur, (s.link r).chan = some cur → gateServes (s.gate r) = true → (s.record r).inFlight = none →
        (eligible s r c = false → exec i s = .next (s.answered now code .notEligible []))
        ∧ (eligible s r c = true → c = cur → exec i s = .next (s.answered now code .badArgument []))
        ∧ (eligible s r c = true → c ≠ cur →
          let n := if count = 0 then (s.record r).announce else min 15 count
          let due := now + BitVec.ofNat 32 (n * 102400 + 1000000)
          ∃ t, exec i s = .next t ∧ t.host = (s.answered now code .ok (bAT due)).host
            ∧ t.record r = { s.record r with
                sustain := 0, candidate := none, proposal := none, holding := false
                inFlight := some ⟨c, n, due, .host, cur⟩ }
            ∧ t.link r = { s.link r with sent := (s.link r).sent ++ [.switch c n] }
            ∧ t.record (otherRadio r) = s.record (otherRadio r) ∧ t.link (otherRadio r) = s.link (otherRadio r)
            ∧ touchesOnly [.now, .host, .cpl, .links] s t)
    (∀ (a b n : Byte) rest, s.inHandIs 0x62 (a :: b :: n :: rest) →
      (2 ≤ a.toNat ∨ 38 ≤ b.toNat → exec (.setChannel now) s = .next (s.answered now 0x62 .badArgument []))
      ∧ ∀ c : Chan, radioCode r = a.toNat → c.val = b.toNat → checked (.setChannel now) 0x62 c n.toNat)
    ∧ (∀ (a : Byte) rest, s.inHandIs 0x63 (a :: rest) →
      (2 ≤ a.toNat → exec (.acceptProposal now) s = .next (s.answered now 0x63 .badArgument []))
      ∧ (radioCode r = a.toNat → (s.record r).proposal = none →
        exec (.acceptProposal now) s = .next (s.answered now 0x63 .wrongState []))
      ∧ (∀ q, radioCode r = a.toNat → (s.record r).proposal = some q →
        checked (.acceptProposal now) 0x63 q.chan 0))
    ∧ (s.phase = .running →
      (∀ w, (s.record r).inFlight = some w → 0 ≤ tdiff now w.deadline →
        exec (.switchDeadline now r) s = .next (raise .switchFailed (radioCode r)
          ((s.withNow now).setRecord r { s.record r with inFlight := none })))
      ∧ (∀ w, (s.record r).inFlight = some w → tdiff now w.deadline < 0 →
        exec (.switchDeadline now r) s = .next (s.withNow now))
      ∧ ((s.record r).inFlight = none → exec (.switchDeadline now r) s = .next (s.withNow now)))

/-- R170 to R172, R122, R124, R125, R167: STATUS and SWITCHED: their field checks; the first STATUS makes the radio KNOWN,
with GATE NOTICE; a record of another channel closes the switch in flight, with SWITCH_DONE and CHANNEL_MISMATCH when it is
not the target, or is a change outside the plan, with CHANNEL_MISMATCH. When the new channel has a radar bar and the gate
is neither OFF nor SAFE a radar move follows, to the best eligible channel with an announce count of 1, or NO_CHANNEL. -/
def Obligations.StatusAndSwitchedPlaceRadio : Prop :=
  ∀ (now : AT) (r : Radio) (band b : Byte) (s : State), s.listens r →
    let u := s.tookRecord now r
    (38 ≤ b.toNat → exec (.status now r band b) s = .next (u.withLinkError r .badChannel)
      ∧ exec (.switched now r b) s = .next (u.withLinkError r .badChannel))
    ∧ ∀ c : Chan, c.val = b.toNat →
      let placed := u.setLink r { u.link r with chan := some c }
      let x := { s.record r with
        sustain := 0, candidate := none, proposal := none, lastSwitch := some ⟨now, s.omap.barClock⟩, inFlight := none }
      let closed := fun w : Switch =>
        let v := raise .switchDone (radioCode r) (placed.setRecord r x)
        if c = w.target then v else raise .channelMismatch (radioCode r) v
      let changed := (raise .channelMismatch (radioCode r) placed).setRecord r x
      let arrives : Instr → State → Prop := fun i v =>
        ((s.chan c).barredUntil = none ∨ gateServes (s.gate r) = false → exec i s = .next v)
        ∧ ((s.chan c).barredUntil ≠ none → gateServes (s.gate r) = true →
          (bestOf v r = none → exec i s = .next (raise .noChannel (radioCode r) v))
          ∧ ∀ best, bestOf v r = some best → exec i s = .next
            ((v.setLink r { v.link r with sent := (v.link r).sent ++ [.switch best 1] }).setRecord r { x with
              inFlight := some ⟨best, 1, now + 1102400, .radar, c⟩ }))
      (band.toNat ≠ (if c.val ≤ 12 then 0 else 1) →
        exec (.status now r band b) s = .next (u.withLinkError r .badBand))
      ∧ (band.toNat = (if c.val ≤ 12 then 0 else 1) →
        (∀ m, (s.link r).chan = none → (s.gate r).mode = .host m → exec (.status now r band b) s = .next
          (u.setLink r { u.link r with chan := some c, sent := (s.link r).sent ++ [.gateNotice m] }))
        ∧ ((s.link r).chan = some c → exec (.status now r band b) s = .next u)
        ∧ (∀ cur, (s.link r).chan = some cur → cur ≠ c →
          (∀ w, (s.record r).inFlight = some w → arrives (.status now r band b) (closed w))
          ∧ ((s.record r).inFlight = none → arrives (.status now r band b) changed)))
      ∧ ((s.link r).chan = none → exec (.switched now r b) s = .next u)
      ∧ (∀ cur, (s.link r).chan = some cur →
        (∀ w, (s.record r).inFlight = some w → arrives (.switched now r b) (closed w))
        ∧ ((s.record r).inFlight = none → cur = c → exec (.switched now r b) s = .next u)
        ∧ ((s.record r).inFlight = none → cur ≠ c → arrives (.switched now r b) changed))

/-- R175, R80, R125, R126, R119: a RADAR bars its channel for the bar time, never shortening a bar, with RADAR_BAR; a radio on
the channel, not switching and its gate neither OFF nor SAFE, is ordered to its best eligible channel with an announce count
of 1, or raises NO_CHANNEL. With both radios on the channel radio 0 is taken first, and radio 1's best is the one that its
target leaves. That NO_CHANNEL comes at every RADAR of a stuck radio's channel, a repeated one too, is DEDUCED (log entry
25), and so is a barred-until without an upper bound (log entry 23). -/
def Obligations.RadarBarsAndMoves : Prop :=
  ∀ (now : AT) (r : Radio) (b : Byte) (s : State), s.listens r →
    let u := s.tookRecord now r
    (38 ≤ b.toNat → exec (.radar now r b) s = .next (u.withLinkError r .badChannel))
    ∧ ∀ c : Chan, c.val = b.toNat →
      let till := s.omap.barClock + s.omap.barTime
      let v := raise .radarBar c.val (u.setChan c { s.chan c with
        barredUntil := some (max ((s.chan c).barredUntil.getD 0) till) })
      ((∀ q, (s.link q).chan ≠ some c) → exec (.radar now r b) s = .next v)
      ∧ (∀ q, (s.link q).chan = some c → (s.link (otherRadio q)).chan ≠ some c →
        ∃ t, exec (.radar now r b) s = .next t ∧ v.radarMoved q c t)
      ∧ ((s.link .r0).chan = some c → (s.link .r1).chan = some c →
        ∃ w t, exec (.radar now r b) s = .next t ∧ v.radarMoved .r0 c w ∧ w.radarMoved .r1 c t)

/-! ## The airtime gates (chapter 7) -/

/-- R139, R138, R146, R136, R147: an AIR REQUEST of an UNKNOWN radio, of a gate OFF or BARRED, or with a grant outstanding is
refused with its reason, and of a gate HELD answered WAIT 1000; on an OPEN gate that no protecting tracker and no other
grant hinders it is granted at once: slot, list entry in start order and under the list's cap, and GRANT with wait 0 and
the clamped length. R66, R65, R69, R133, R142: which trackers are protecting and cover a channel, the guard of a class,
the gates that serve, and when exclusion applies. -/
def Obligations.AirRequestAnswered : Prop :=
  (∀ (set : TrackSettings) (policy : Policy) (q : ReqClass) (o : Oven) (c : Chan),
    (protecting policy q o = true ↔ o.phase = .locked ∨ ((∃ b, o.phase = .holdover b) ∧ policy = .avoid ∧ q = .normal))
    ∧ (covers o c = true ↔ o.lo ≤ c ∧ c ≤ o.hi)
    ∧ classGuard set .urgent o = 0 ∧ classGuard set .normal o = effectiveGuard set o
    ∧ (∀ b, o.phase = .search b → effectiveGuard set o = set.searchGuard)
    ∧ ((∀ b, o.phase ≠ .search b) → effectiveGuard set o = o.guardUs))
  ∧ (∀ g : Gate, gateServes g = true ↔ ∃ m, g.mode = .host m ∧ m ≠ .gateOff)
  ∧ (∀ (s : State) (r : Radio), exclusionApplies s r = true ↔ s.agt.exclusion = true
    ∧ ∃ c d, (s.link r).chan = some c ∧ (s.link (otherRadio r)).chan = some d ∧ bandOf c = bandOf d)
  ∧ ∀ (now : AT) (r : Radio) (tag : Byte) (len minLen maxWait : BitVec 16) (cls : Byte) (s : State), s.listens r →
    let u := s.tookRecord now r
    let run := exec (.airRequest now r tag len minLen maxWait cls) s
    ((s.link r).chan = none → run = .next (sendRadio r (.refuse tag .unknown 0) u))
    ∧ ∀ c, (s.link r).chan = some c →
      ((s.gate r).mode = .host .gateOff → run = .next (sendRadio r (.refuse tag .off 0) u))
      ∧ ((s.gate r).mode = .host .gateBarred → run = .next (sendRadio r (.refuse tag .barred 0) u))
      ∧ ((s.gate r).mode = .host .gateHeld → run = .next (sendRadio r (.wait tag 1000) u))
      ∧ ((s.gate r).mode = .host .gateOpen →
        ((s.gate r).slot ≠ none → run = .next (sendRadio r (.refuse tag .busy 0) u))
        ∧ ((s.gate r).slot = none → (exclusionApplies s r = false ∨ (s.gate (otherRadio r)).slot = none) →
          let q : ReqClass := if cls = 1 then .urgent else .normal
          (∀ k o, (s.tracker k).oven = some o → protecting s.otk.settings.policy q o = true → covers o c = false) →
          let n := min 8000 (max 32 len.toNat)
          let start := now + BitVec.ofNat 32 (s.gate r).latency
          ∃ t, run = .next t
            ∧ t.link r = { u.link r with sent := (s.link r).sent ++ [.grant tag 0 n] }
            ∧ u.issues r (bandOf c) 0 ⟨tag, q, start, n, false, start + BitVec.ofNat 32 (n + 500), true⟩ t))

/-- R146, with R140 to R144: a GRANT or SHORT overlaps no window, guarded for the request's class, of a tracker protecting for
that class that covers the radio's channel, whatever the window's index; nor, with exclusion, the other radio's outstanding
grant; and it starts within the request's horizon. R143: a request on an OPEN gate is granted its whole length at the
earliest start within the horizon at which it fits. R144: else, with a minimum, it gets a SHORT at the earliest start at
which the minimum fits, of all that fits there; that start is t0 or the end of a blocking interval, so it is the first of
R144's candidates. R145: else it is refused TOO_LONG with the bound, the least gap between the windows of one tracker, when
it is longer than that, and is told to WAIT until scan A's last start when it is not. -/
def Obligations.GrantsAvoidWindows : Prop :=
  (∀ (now : AT) (r : Radio) (tag : Byte) (len minLen maxWait : BitVec 16) (cls : Byte) (s t : State) (c : Chan) (g : Grant),
    TrackerInv s → GateInv s → s.listens r → (s.link r).chan = some c → (s.gate r).slot = none →
    exec (.airRequest now r tag len minLen maxWait cls) s = .next t → (t.gate r).slot = some g →
    let t0 := now + BitVec.ofNat 32 (s.gate r).latency
    ∃ w : Nat, w ≤ maxWait.toNat ∧ g.start = t0 + BitVec.ofNat 32 w
      ∧ 32 ≤ g.length ∧ g.length ≤ min 8000 (max 32 len.toNat)
      ∧ (∀ k o, (s.tracker k).oven = some o → protecting s.otk.settings.policy g.cls o = true → covers o c = true →
        ∀ i : Int, let a := tdiff o.anchor t0 + i * o.period
          let guard := classGuard s.otk.settings g.cls o
          (w : Int) + g.length ≤ a - guard ∨ a + o.width + guard ≤ w)
      ∧ (∀ h, exclusionApplies s r = true → (s.gate (otherRadio r)).slot = some h →
        (w : Int) + g.length ≤ tdiff h.start t0 ∨ tdiff (h.start + BitVec.ofNat 32 h.length) t0 ≤ w))
  ∧ ∀ (now : AT) (r : Radio) (tag : Byte) (len minLen maxWait : BitVec 16) (cls : Byte) (s : State) (c : Chan),
    TrackerInv s → GateInv s → s.listens r → (s.link r).chan = some c → (s.gate r).mode = .host .gateOpen →
    (s.gate r).slot = none →
    let u := s.tookRecord now r
    let run := exec (.airRequest now r tag len minLen maxWait cls) s
    let q : ReqClass := if cls = 1 then .urgent else .normal
    let whole := min 8000 (max 32 len.toNat)
    let least := if minLen = 0 then 0 else min whole (max 32 minLen.toNat)
    let horizon := maxWait.toNat
    let t0 := now + BitVec.ofNat 32 (s.gate r).latency
    let fits := s.fits r c q t0
    let gap := fun o : Oven => o.period - o.width - 2 * classGuard s.otk.settings q o
    let grant := fun (w n : Nat) (short : Bool) =>
      (⟨tag, q, t0 + BitVec.ofNat 32 w, n, short, t0 + BitVec.ofNat 32 w + BitVec.ofNat 32 (n + 500), true⟩ : Grant)
    (∀ w, w ≤ horizon → fits w whole → (∀ v < w, ¬ fits v whole) →
      ∃ t, run = .next t ∧ u.issues r (bandOf c) w (grant w whole false) t)
    ∧ ((∀ w, w ≤ horizon → ¬ fits w whole) →
      (least ≠ 0 → ∀ w n, w ≤ horizon → fits w least → (∀ v < w, ¬ fits v least) → fits w n → ¬ fits w (n + 1) →
        ∃ t, run = .next t ∧ u.issues r (bandOf c) w (grant w n true) t)
      ∧ (least = 0 ∨ (∀ w, w ≤ horizon → ¬ fits w least) →
        (∀ o, s.shapes q c o → (∀ p, s.shapes q c p → gap o ≤ gap p) → gap o < whole →
          run = .next (sendRadio r (.refuse tag .tooLong (gap o)) u))
        ∧ ((∀ o, s.shapes q c o → whole ≤ gap o) → ∃ (starts : Nat → Int) (n : Nat), starts 0 = 0
          ∧ (∀ i < n, starts i ≤ horizon ∧ s.movesOn r c q t0 whole (starts i) (starts (i + 1)))
          ∧ (horizon : Int) < starts n
          ∧ run = .next (sendRadio r (.wait tag (min 65535 (starts n).toNat)) u))))

/-- R151 to R153, R137: AIR END with the outstanding grant's tag closes it, and its entry ends at the time used, at
most its length; any other AIR END is stray. At its expiry a grant is closed with GRANT_EXPIRED, its entry as it
stands. Entries that ended more than 200,000 µs ago leave their band's list. That one row removes all aged entries of
its band, and how an entry is tied to its grant, are the model's choices (log entries 16, 17), as are an expiry not yet
due and a late one that has its effect late (log entries 1, 2). -/
def Obligations.GrantsCloseAndAgeOut : Prop :=
  ∀ (now : AT) (r : Radio) (s : State),
    let ended : State → AT → State → Prop := fun u stop t =>
      t.gate r = { s.gate r with slot := none } ∧ t.gate (otherRadio r) = s.gate (otherRadio r)
      ∧ (∀ b, t.recent b = (s.recent b).map fun e =>
          if e.live = true ∧ e.radio = r then { e with stop, live := false } else e)
      ∧ t.agt.exclusion = s.agt.exclusion ∧ touchesOnly [.agt, .events] u t
    (∀ (tag : Byte) (used : BitVec 16), s.listens r →
      let u := s.tookRecord now r
      (∀ g, (s.gate r).slot = some g → g.tag = tag → ∃ t, exec (.airEnd now r tag used) s = .next t
        ∧ ended u (g.start + BitVec.ofNat 32 (min used.toNat g.length)) t ∧ t.events = s.events)
      ∧ ((∀ g, (s.gate r).slot = some g → g.tag ≠ tag) →
        exec (.airEnd now r tag used) s = .next (raise .strayEnd (radioCode r) u)))
    ∧ (s.phase = .running →
      (∀ g, (s.gate r).slot = some g →
        (0 ≤ tdiff now g.expiry → ∃ t, exec (.grantExpiry now r) s = .next t
          ∧ t.gate r = { s.gate r with slot := none } ∧ t.gate (otherRadio r) = s.gate (otherRadio r)
          ∧ (∀ b, t.recent b = (s.recent b).map fun e => if e.live = true ∧ e.radio = r then { e with live := false } else e)
          ∧ t.events = (raise .grantExpired (radioCode r) (s.withNow now)).events
          ∧ touchesOnly [.now, .agt, .events] s t)
        ∧ (tdiff now g.expiry < 0 → exec (.grantExpiry now r) s = .next (s.withNow now)))
      ∧ ((s.gate r).slot = none → exec (.grantExpiry now r) s = .next (s.withNow now))
      ∧ ∀ b, ∃ t, exec (.grantEntryAgeOut now b) s = .next t
        ∧ t.recent b = (s.recent b).filter (fun e => decide (tdiff now e.stop ≤ 200000))
        ∧ (∀ b', b' ≠ b → t.recent b' = s.recent b')
        ∧ ((∃ e ∈ s.recent b, e.live = true ∧ e.radio = r ∧ 200000 < tdiff now e.stop) →
          t.gate r = { s.gate r with slot := (s.gate r).slot.map fun g => { g with listEntry := false } })
        ∧ ((∀ e ∈ s.recent b, e.live = true → e.radio = r → tdiff now e.stop ≤ 200000) → t.gate r = s.gate r))

/-- R156, R157, R160, R135: SET GATE sets the mode and sends GATE NOTICE when it changes; in SAFE it sets the mode to return to;
SET EXCLUSION and SET LATENCY store their setting and answer it; codes and numbers out of range are refused. -/
def Obligations.GateCommands : Prop :=
  ∀ (now : AT) (s : State),
    (∀ (a b : Byte) rest, s.inHandIs 0x70 (a :: b :: rest) →
      (2 ≤ a.toNat ∨ 4 ≤ b.toNat → exec (.setGate now) s = .next (s.answered now 0x70 .badArgument []))
      ∧ ∀ (r : Radio) (m : HostMode), radioCode r = a.toNat → m.code = b.toNat →
        let u := s.answered now 0x70 .ok []
        (∀ before, (s.gate r).mode = .safe before →
          exec (.setGate now) s = .next (u.setGate r { s.gate r with mode := .safe m }))
        ∧ ((s.gate r).mode = .host m → exec (.setGate now) s = .next u)
        ∧ (∀ old, (s.gate r).mode = .host old → old ≠ m → exec (.setGate now) s = .next
          ((u.setGate r { s.gate r with mode := .host m }).setLink r
            { s.link r with sent := (s.link r).sent ++ [.gateNotice m] })))
    ∧ (∀ (a : Byte) rest, s.inHandIs 0x71 (a :: rest) →
      (2 ≤ a.toNat → exec (.setExclusion now) s = .next (s.answered now 0x71 .badArgument []))
      ∧ ∀ on : Bool, a = (if on then 1 else 0) → exec (.setExclusion now) s = .next
          { s.answered now 0x71 .ok [a] with agt := { s.agt with exclusion := on } })
    ∧ (∀ (a b c : Byte) rest, s.inHandIs 0x72 (a :: b :: c :: rest) →
      (2 ≤ a.toNat → exec (.setLatency now) s = .next (s.answered now 0x72 .badArgument []))
      ∧ ∀ r, radioCode r = a.toNat →
        let n := min 200 (256 * b.toNat + c.toNat)
        exec (.setLatency now) s = .next
          ((s.answered now 0x72 .ok (b2 n)).setGate r { s.gate r with latency := n }))

/-! ## The radio links (chapter 8) -/

/-- R166, R167, R183: a record of unknown type or wrong length and a record cut short are link errors; under resync
no record is taken, and 1000 µs of idle link clear it. R177, R179, R178: at its expiry the silence timer stops, the
radio is silent and its gate SAFE, with RADIO_SILENT; SET SILENCE stores the clamped limit and runs a running timer
from the last valid record; the first valid record of a silent radio, of any kind, brings the gate back, with RADIO_BACK
and GATE NOTICE, and HOLDING when hold-on-return is on, and is then handled as a record of a radio that is not silent,
but that a first STATUS has had its notice. The idle time is the sender's word, and a row not yet due, a late one and an
expiry that falls exactly at SET SILENCE are the model's choices (log entries 1, 2, 10, 15). -/
def Obligations.LinkFramingAndSilence : Prop :=
  ∀ (now : AT) (r : Radio) (s : State), s.phase = .running →
    let silenced := fun u : State => raise .radioSilent (radioCode r)
      ((u.setLink r { u.link r with timer := none, silent := true }).setGate r
        { s.gate r with mode := .safe (match (s.gate r).mode with
          | .host m => m
          | .safe m => m) })
    (∀ type len : Byte,
      ((s.link r).resync = true → exec (.linkFramingError now r type len) s = .next (s.withNow now)
        ∧ exec (.linkTruncation now r) s = .next (s.withNow now))
      ∧ ((s.link r).resync = false →
        ((type = 0 ∨ 6 < type.toNat) →
          exec (.linkFramingError now r type len) s = .next ((s.withNow now).withLinkError r .unknownType))
        ∧ (∀ row ∈ [(1, 2), (2, 8), (3, 3), (4, 10), (5, 1), (6, 1)], type.toNat = row.1 → len.toNat ≠ row.2 →
          exec (.linkFramingError now r type len) s = .next ((s.withNow now).withLinkError r .wrongLength))
        ∧ exec (.linkTruncation now r) s = .next ((s.withNow now).withLinkError r .truncated)))
    ∧ exec (.linkResyncClear now r) s = .next ((s.withNow now).setLink r { s.link r with resync := false })
    ∧ (∀ e, (s.link r).timer = some e →
      (0 ≤ tdiff now e → exec (.silenceTimerExpiry now r) s = .next (silenced (s.withNow now)))
      ∧ (tdiff now e < 0 → exec (.silenceTimerExpiry now r) s = .next (s.withNow now)))
    ∧ ((s.link r).timer = none → exec (.silenceTimerExpiry now r) s = .next (s.withNow now))
    ∧ (∀ (a b c : Byte) rest, s.inHandIs 0x78 (a :: b :: c :: rest) →
      (2 ≤ a.toNat → exec (.setSilence now) s = .next (s.answered now 0x78 .badArgument []))
      ∧ (radioCode r = a.toNat →
        let ms := min 5000 (max 100 (256 * b.toNat + c.toNat))
        let u := s.answered now 0x78 .ok (b2 ms)
        ((s.link r).timer = none → exec (.setSilence now) s = .next (u.setLink r { s.link r with limitMs := ms }))
        ∧ (∀ e v, (s.link r).timer = some e → (s.link r).lastValid = some v →
          let due := v + BitVec.ofNat 32 (ms * 1000)
          (tdiff now due ≤ 0 → exec (.setSilence now) s = .next
            (u.setLink r { s.link r with limitMs := ms, timer := some due }))
          ∧ (0 < tdiff now due → exec (.setSilence now) s = .next
            (silenced (u.setLink r { s.link r with limitMs := ms, timer := some due }))))))
    ∧ ∀ (band b tag cls raw : Byte) (len minLen maxWait used : BitVec 16) (network airtime : BitVec 32),
      let records : List Instr := [.airRequest now r tag len minLen maxWait cls, .airEnd now r tag used,
        .overheard now r network b raw airtime, .radar now r b, .switched now r b]
      ((s.link r).resync = true → ∀ i ∈ .status now r band b :: records, exec i s = .next (s.withNow now))
      ∧ ∀ m : HostMode, (s.link r).resync = false → (s.link r).silent = true → (s.gate r).mode = .safe m →
        let u := s.tookRecord now r
        let back := ((raise .radioBack (radioCode r) (u.setLink r { u.link r with
            silent := false, sent := (s.link r).sent ++ [.gateNotice m] })).setGate r
          { s.gate r with mode := .host m }).setRecord r
          { s.record r with holding := (s.record r).holding || (s.record r).holdOnReturn }
        let returned := back.setLink r { back.link r with taken := (s.link r).taken }
        let passes : Chan → Prop := fun c => b.toNat = c.val ∧ band.toNat = (if c.val ≤ 12 then 0 else 1)
        (∀ i ∈ records, exec i s = exec i returned)
        ∧ ((s.link r).chan ≠ none ∨ (∀ c, ¬ passes c) →
          exec (.status now r band b) s = exec (.status now r band b) returned)
        ∧ (∀ c, passes c → (s.link r).chan = some c → exec (.status now r band b) s = .next back)
        ∧ (∀ c, passes c → (s.link r).chan = none →
          exec (.status now r band b) s = .next (back.setLink r { back.link r with chan := some c }))
end

