-- ==== Sys2Proof/Laws/State.lean ====
section
/-! SUPPORT. What each update of the state leaves in each field, and reading back a written record. -/

namespace Sys2Proof.Machine

@[simp] theorem State.withNow_phase (s : State) (x : AT) : (s.withNow x).phase = s.phase := rfl
@[simp] theorem State.withNow_now (s : State) (x : AT) : (s.withNow x).now = x := rfl
@[simp] theorem State.withNow_ssc (s : State) (x : AT) : (s.withNow x).ssc = s.ssc := rfl
@[simp] theorem State.withNow_bcl (s : State) (x : AT) : (s.withNow x).bcl = s.bcl := rfl
@[simp] theorem State.withNow_otk (s : State) (x : AT) : (s.withNow x).otk = s.otk := rfl
@[simp] theorem State.withNow_omap (s : State) (x : AT) : (s.withNow x).omap = s.omap := rfl
@[simp] theorem State.withNow_ntab (s : State) (x : AT) : (s.withNow x).ntab = s.ntab := rfl
@[simp] theorem State.withNow_cpl (s : State) (x : AT) : (s.withNow x).cpl = s.cpl := rfl
@[simp] theorem State.withNow_agt (s : State) (x : AT) : (s.withNow x).agt = s.agt := rfl
@[simp] theorem State.withNow_links (s : State) (x : AT) : (s.withNow x).links = s.links := rfl
@[simp] theorem State.withNow_host (s : State) (x : AT) : (s.withNow x).host = s.host := rfl
@[simp] theorem State.withNow_events (s : State) (x : AT) : (s.withNow x).events = s.events := rfl
@[simp] theorem State.withNow_pending (s : State) (x : AT) : (s.withNow x).pending = s.pending := rfl

@[simp] theorem State.withSsc_phase (s : State) (x : Ssc) : (s.withSsc x).phase = s.phase := rfl
@[simp] theorem State.withSsc_now (s : State) (x : Ssc) : (s.withSsc x).now = s.now := rfl
@[simp] theorem State.withSsc_ssc (s : State) (x : Ssc) : (s.withSsc x).ssc = x := rfl
@[simp] theorem State.withSsc_bcl (s : State) (x : Ssc) : (s.withSsc x).bcl = s.bcl := rfl
@[simp] theorem State.withSsc_otk (s : State) (x : Ssc) : (s.withSsc x).otk = s.otk := rfl
@[simp] theorem State.withSsc_omap (s : State) (x : Ssc) : (s.withSsc x).omap = s.omap := rfl
@[simp] theorem State.withSsc_ntab (s : State) (x : Ssc) : (s.withSsc x).ntab = s.ntab := rfl
@[simp] theorem State.withSsc_cpl (s : State) (x : Ssc) : (s.withSsc x).cpl = s.cpl := rfl
@[simp] theorem State.withSsc_agt (s : State) (x : Ssc) : (s.withSsc x).agt = s.agt := rfl
@[simp] theorem State.withSsc_links (s : State) (x : Ssc) : (s.withSsc x).links = s.links := rfl
@[simp] theorem State.withSsc_host (s : State) (x : Ssc) : (s.withSsc x).host = s.host := rfl
@[simp] theorem State.withSsc_events (s : State) (x : Ssc) : (s.withSsc x).events = s.events := rfl
@[simp] theorem State.withSsc_pending (s : State) (x : Ssc) : (s.withSsc x).pending = s.pending := rfl

@[simp] theorem State.withBcl_phase (s : State) (x : Bcl) : (s.withBcl x).phase = s.phase := rfl
@[simp] theorem State.withBcl_now (s : State) (x : Bcl) : (s.withBcl x).now = s.now := rfl
@[simp] theorem State.withBcl_ssc (s : State) (x : Bcl) : (s.withBcl x).ssc = s.ssc := rfl
@[simp] theorem State.withBcl_bcl (s : State) (x : Bcl) : (s.withBcl x).bcl = x := rfl
@[simp] theorem State.withBcl_otk (s : State) (x : Bcl) : (s.withBcl x).otk = s.otk := rfl
@[simp] theorem State.withBcl_omap (s : State) (x : Bcl) : (s.withBcl x).omap = s.omap := rfl
@[simp] theorem State.withBcl_ntab (s : State) (x : Bcl) : (s.withBcl x).ntab = s.ntab := rfl
@[simp] theorem State.withBcl_cpl (s : State) (x : Bcl) : (s.withBcl x).cpl = s.cpl := rfl
@[simp] theorem State.withBcl_agt (s : State) (x : Bcl) : (s.withBcl x).agt = s.agt := rfl
@[simp] theorem State.withBcl_links (s : State) (x : Bcl) : (s.withBcl x).links = s.links := rfl
@[simp] theorem State.withBcl_host (s : State) (x : Bcl) : (s.withBcl x).host = s.host := rfl
@[simp] theorem State.withBcl_events (s : State) (x : Bcl) : (s.withBcl x).events = s.events := rfl
@[simp] theorem State.withBcl_pending (s : State) (x : Bcl) : (s.withBcl x).pending = s.pending := rfl

@[simp] theorem State.withOtk_phase (s : State) (x : Otk) : (s.withOtk x).phase = s.phase := rfl
@[simp] theorem State.withOtk_now (s : State) (x : Otk) : (s.withOtk x).now = s.now := rfl
@[simp] theorem State.withOtk_ssc (s : State) (x : Otk) : (s.withOtk x).ssc = s.ssc := rfl
@[simp] theorem State.withOtk_bcl (s : State) (x : Otk) : (s.withOtk x).bcl = s.bcl := rfl
@[simp] theorem State.withOtk_otk (s : State) (x : Otk) : (s.withOtk x).otk = x := rfl
@[simp] theorem State.withOtk_omap (s : State) (x : Otk) : (s.withOtk x).omap = s.omap := rfl
@[simp] theorem State.withOtk_ntab (s : State) (x : Otk) : (s.withOtk x).ntab = s.ntab := rfl
@[simp] theorem State.withOtk_cpl (s : State) (x : Otk) : (s.withOtk x).cpl = s.cpl := rfl
@[simp] theorem State.withOtk_agt (s : State) (x : Otk) : (s.withOtk x).agt = s.agt := rfl
@[simp] theorem State.withOtk_links (s : State) (x : Otk) : (s.withOtk x).links = s.links := rfl
@[simp] theorem State.withOtk_host (s : State) (x : Otk) : (s.withOtk x).host = s.host := rfl
@[simp] theorem State.withOtk_events (s : State) (x : Otk) : (s.withOtk x).events = s.events := rfl
@[simp] theorem State.withOtk_pending (s : State) (x : Otk) : (s.withOtk x).pending = s.pending := rfl

@[simp] theorem State.withOmap_phase (s : State) (x : Omap) : (s.withOmap x).phase = s.phase := rfl
@[simp] theorem State.withOmap_now (s : State) (x : Omap) : (s.withOmap x).now = s.now := rfl
@[simp] theorem State.withOmap_ssc (s : State) (x : Omap) : (s.withOmap x).ssc = s.ssc := rfl
@[simp] theorem State.withOmap_bcl (s : State) (x : Omap) : (s.withOmap x).bcl = s.bcl := rfl
@[simp] theorem State.withOmap_otk (s : State) (x : Omap) : (s.withOmap x).otk = s.otk := rfl
@[simp] theorem State.withOmap_omap (s : State) (x : Omap) : (s.withOmap x).omap = x := rfl
@[simp] theorem State.withOmap_ntab (s : State) (x : Omap) : (s.withOmap x).ntab = s.ntab := rfl
@[simp] theorem State.withOmap_cpl (s : State) (x : Omap) : (s.withOmap x).cpl = s.cpl := rfl
@[simp] theorem State.withOmap_agt (s : State) (x : Omap) : (s.withOmap x).agt = s.agt := rfl
@[simp] theorem State.withOmap_links (s : State) (x : Omap) : (s.withOmap x).links = s.links := rfl
@[simp] theorem State.withOmap_host (s : State) (x : Omap) : (s.withOmap x).host = s.host := rfl
@[simp] theorem State.withOmap_events (s : State) (x : Omap) : (s.withOmap x).events = s.events := rfl
@[simp] theorem State.withOmap_pending (s : State) (x : Omap) : (s.withOmap x).pending = s.pending := rfl

@[simp] theorem State.withNtab_phase (s : State) (x : Ntab) : (s.withNtab x).phase = s.phase := rfl
@[simp] theorem State.withNtab_now (s : State) (x : Ntab) : (s.withNtab x).now = s.now := rfl
@[simp] theorem State.withNtab_ssc (s : State) (x : Ntab) : (s.withNtab x).ssc = s.ssc := rfl
@[simp] theorem State.withNtab_bcl (s : State) (x : Ntab) : (s.withNtab x).bcl = s.bcl := rfl
@[simp] theorem State.withNtab_otk (s : State) (x : Ntab) : (s.withNtab x).otk = s.otk := rfl
@[simp] theorem State.withNtab_omap (s : State) (x : Ntab) : (s.withNtab x).omap = s.omap := rfl
@[simp] theorem State.withNtab_ntab (s : State) (x : Ntab) : (s.withNtab x).ntab = x := rfl
@[simp] theorem State.withNtab_cpl (s : State) (x : Ntab) : (s.withNtab x).cpl = s.cpl := rfl
@[simp] theorem State.withNtab_agt (s : State) (x : Ntab) : (s.withNtab x).agt = s.agt := rfl
@[simp] theorem State.withNtab_links (s : State) (x : Ntab) : (s.withNtab x).links = s.links := rfl
@[simp] theorem State.withNtab_host (s : State) (x : Ntab) : (s.withNtab x).host = s.host := rfl
@[simp] theorem State.withNtab_events (s : State) (x : Ntab) : (s.withNtab x).events = s.events := rfl
@[simp] theorem State.withNtab_pending (s : State) (x : Ntab) : (s.withNtab x).pending = s.pending := rfl

@[simp] theorem State.withCpl_phase (s : State) (x : Cpl) : (s.withCpl x).phase = s.phase := rfl
@[simp] theorem State.withCpl_now (s : State) (x : Cpl) : (s.withCpl x).now = s.now := rfl
@[simp] theorem State.withCpl_ssc (s : State) (x : Cpl) : (s.withCpl x).ssc = s.ssc := rfl
@[simp] theorem State.withCpl_bcl (s : State) (x : Cpl) : (s.withCpl x).bcl = s.bcl := rfl
@[simp] theorem State.withCpl_otk (s : State) (x : Cpl) : (s.withCpl x).otk = s.otk := rfl
@[simp] theorem State.withCpl_omap (s : State) (x : Cpl) : (s.withCpl x).omap = s.omap := rfl
@[simp] theorem State.withCpl_ntab (s : State) (x : Cpl) : (s.withCpl x).ntab = s.ntab := rfl
@[simp] theorem State.withCpl_cpl (s : State) (x : Cpl) : (s.withCpl x).cpl = x := rfl
@[simp] theorem State.withCpl_agt (s : State) (x : Cpl) : (s.withCpl x).agt = s.agt := rfl
@[simp] theorem State.withCpl_links (s : State) (x : Cpl) : (s.withCpl x).links = s.links := rfl
@[simp] theorem State.withCpl_host (s : State) (x : Cpl) : (s.withCpl x).host = s.host := rfl
@[simp] theorem State.withCpl_events (s : State) (x : Cpl) : (s.withCpl x).events = s.events := rfl
@[simp] theorem State.withCpl_pending (s : State) (x : Cpl) : (s.withCpl x).pending = s.pending := rfl

@[simp] theorem State.withAgt_phase (s : State) (x : Agt) : (s.withAgt x).phase = s.phase := rfl
@[simp] theorem State.withAgt_now (s : State) (x : Agt) : (s.withAgt x).now = s.now := rfl
@[simp] theorem State.withAgt_ssc (s : State) (x : Agt) : (s.withAgt x).ssc = s.ssc := rfl
@[simp] theorem State.withAgt_bcl (s : State) (x : Agt) : (s.withAgt x).bcl = s.bcl := rfl
@[simp] theorem State.withAgt_otk (s : State) (x : Agt) : (s.withAgt x).otk = s.otk := rfl
@[simp] theorem State.withAgt_omap (s : State) (x : Agt) : (s.withAgt x).omap = s.omap := rfl
@[simp] theorem State.withAgt_ntab (s : State) (x : Agt) : (s.withAgt x).ntab = s.ntab := rfl
@[simp] theorem State.withAgt_cpl (s : State) (x : Agt) : (s.withAgt x).cpl = s.cpl := rfl
@[simp] theorem State.withAgt_agt (s : State) (x : Agt) : (s.withAgt x).agt = x := rfl
@[simp] theorem State.withAgt_links (s : State) (x : Agt) : (s.withAgt x).links = s.links := rfl
@[simp] theorem State.withAgt_host (s : State) (x : Agt) : (s.withAgt x).host = s.host := rfl
@[simp] theorem State.withAgt_events (s : State) (x : Agt) : (s.withAgt x).events = s.events := rfl
@[simp] theorem State.withAgt_pending (s : State) (x : Agt) : (s.withAgt x).pending = s.pending := rfl

@[simp] theorem State.withLinks_phase (s : State) (x : Pair Link) : (s.withLinks x).phase = s.phase := rfl
@[simp] theorem State.withLinks_now (s : State) (x : Pair Link) : (s.withLinks x).now = s.now := rfl
@[simp] theorem State.withLinks_ssc (s : State) (x : Pair Link) : (s.withLinks x).ssc = s.ssc := rfl
@[simp] theorem State.withLinks_bcl (s : State) (x : Pair Link) : (s.withLinks x).bcl = s.bcl := rfl
@[simp] theorem State.withLinks_otk (s : State) (x : Pair Link) : (s.withLinks x).otk = s.otk := rfl
@[simp] theorem State.withLinks_omap (s : State) (x : Pair Link) : (s.withLinks x).omap = s.omap := rfl
@[simp] theorem State.withLinks_ntab (s : State) (x : Pair Link) : (s.withLinks x).ntab = s.ntab := rfl
@[simp] theorem State.withLinks_cpl (s : State) (x : Pair Link) : (s.withLinks x).cpl = s.cpl := rfl
@[simp] theorem State.withLinks_agt (s : State) (x : Pair Link) : (s.withLinks x).agt = s.agt := rfl
@[simp] theorem State.withLinks_links (s : State) (x : Pair Link) : (s.withLinks x).links = x := rfl
@[simp] theorem State.withLinks_host (s : State) (x : Pair Link) : (s.withLinks x).host = s.host := rfl
@[simp] theorem State.withLinks_events (s : State) (x : Pair Link) : (s.withLinks x).events = s.events := rfl
@[simp] theorem State.withLinks_pending (s : State) (x : Pair Link) : (s.withLinks x).pending = s.pending := rfl

@[simp] theorem State.withHost_phase (s : State) (x : HostPort) : (s.withHost x).phase = s.phase := rfl
@[simp] theorem State.withHost_now (s : State) (x : HostPort) : (s.withHost x).now = s.now := rfl
@[simp] theorem State.withHost_ssc (s : State) (x : HostPort) : (s.withHost x).ssc = s.ssc := rfl
@[simp] theorem State.withHost_bcl (s : State) (x : HostPort) : (s.withHost x).bcl = s.bcl := rfl
@[simp] theorem State.withHost_otk (s : State) (x : HostPort) : (s.withHost x).otk = s.otk := rfl
@[simp] theorem State.withHost_omap (s : State) (x : HostPort) : (s.withHost x).omap = s.omap := rfl
@[simp] theorem State.withHost_ntab (s : State) (x : HostPort) : (s.withHost x).ntab = s.ntab := rfl
@[simp] theorem State.withHost_cpl (s : State) (x : HostPort) : (s.withHost x).cpl = s.cpl := rfl
@[simp] theorem State.withHost_agt (s : State) (x : HostPort) : (s.withHost x).agt = s.agt := rfl
@[simp] theorem State.withHost_links (s : State) (x : HostPort) : (s.withHost x).links = s.links := rfl
@[simp] theorem State.withHost_host (s : State) (x : HostPort) : (s.withHost x).host = x := rfl
@[simp] theorem State.withHost_events (s : State) (x : HostPort) : (s.withHost x).events = s.events := rfl
@[simp] theorem State.withHost_pending (s : State) (x : HostPort) : (s.withHost x).pending = s.pending := rfl

@[simp] theorem State.withEvents_phase (s : State) (x : Events) : (s.withEvents x).phase = s.phase := rfl
@[simp] theorem State.withEvents_now (s : State) (x : Events) : (s.withEvents x).now = s.now := rfl
@[simp] theorem State.withEvents_ssc (s : State) (x : Events) : (s.withEvents x).ssc = s.ssc := rfl
@[simp] theorem State.withEvents_bcl (s : State) (x : Events) : (s.withEvents x).bcl = s.bcl := rfl
@[simp] theorem State.withEvents_otk (s : State) (x : Events) : (s.withEvents x).otk = s.otk := rfl
@[simp] theorem State.withEvents_omap (s : State) (x : Events) : (s.withEvents x).omap = s.omap := rfl
@[simp] theorem State.withEvents_ntab (s : State) (x : Events) : (s.withEvents x).ntab = s.ntab := rfl
@[simp] theorem State.withEvents_cpl (s : State) (x : Events) : (s.withEvents x).cpl = s.cpl := rfl
@[simp] theorem State.withEvents_agt (s : State) (x : Events) : (s.withEvents x).agt = s.agt := rfl
@[simp] theorem State.withEvents_links (s : State) (x : Events) : (s.withEvents x).links = s.links := rfl
@[simp] theorem State.withEvents_host (s : State) (x : Events) : (s.withEvents x).host = s.host := rfl
@[simp] theorem State.withEvents_events (s : State) (x : Events) : (s.withEvents x).events = x := rfl
@[simp] theorem State.withEvents_pending (s : State) (x : Events) : (s.withEvents x).pending = s.pending := rfl

@[simp] theorem State.withPending_phase (s : State) (x : List Instr) : (s.withPending x).phase = s.phase := rfl
@[simp] theorem State.withPending_now (s : State) (x : List Instr) : (s.withPending x).now = s.now := rfl
@[simp] theorem State.withPending_ssc (s : State) (x : List Instr) : (s.withPending x).ssc = s.ssc := rfl
@[simp] theorem State.withPending_bcl (s : State) (x : List Instr) : (s.withPending x).bcl = s.bcl := rfl
@[simp] theorem State.withPending_otk (s : State) (x : List Instr) : (s.withPending x).otk = s.otk := rfl
@[simp] theorem State.withPending_omap (s : State) (x : List Instr) : (s.withPending x).omap = s.omap := rfl
@[simp] theorem State.withPending_ntab (s : State) (x : List Instr) : (s.withPending x).ntab = s.ntab := rfl
@[simp] theorem State.withPending_cpl (s : State) (x : List Instr) : (s.withPending x).cpl = s.cpl := rfl
@[simp] theorem State.withPending_agt (s : State) (x : List Instr) : (s.withPending x).agt = s.agt := rfl
@[simp] theorem State.withPending_links (s : State) (x : List Instr) : (s.withPending x).links = s.links := rfl
@[simp] theorem State.withPending_host (s : State) (x : List Instr) : (s.withPending x).host = s.host := rfl
@[simp] theorem State.withPending_events (s : State) (x : List Instr) : (s.withPending x).events = s.events := rfl
@[simp] theorem State.withPending_pending (s : State) (x : List Instr) : (s.withPending x).pending = x := rfl

@[simp] theorem Pair.get_set_self {α : Type} (p : Pair α) (r : Radio) (x : α) : (p.set r x).get r = x := by
  cases r <;> rfl

theorem Pair.get_set_ne {α : Type} (p : Pair α) {r q : Radio} (x : α) (h : q ≠ r) : (p.set r x).get q = p.get q := by
  cases r <;> cases q <;> first | rfl | exact absurd rfl h

@[simp] theorem Triple.get_set_self {α : Type} (p : Triple α) (t : TrackerId) (x : α) : (p.set t x).get t = x := by
  cases t <;> rfl

theorem Triple.get_set_ne {α : Type} (p : Triple α) {t u : TrackerId} (x : α) (h : u ≠ t) :
    (p.set t x).get u = p.get u := by
  cases t <;> cases u <;> first | rfl | exact absurd rfl h

/-- A table built from its index reads back the value at the index. -/
@[simp] theorem chanTable_get {α : Type} (f : Chan → α) (c : Chan) : (chanTable f)[c] = f c := by
  simp [chanTable, allChans]

@[simp] theorem State.setLink_link (s : State) (r : Radio) (x : Link) : (s.setLink r x).link r = x := by
  simp [State.setLink, State.link]

theorem State.setLink_link_ne (s : State) {r q : Radio} (x : Link) (h : q ≠ r) : (s.setLink r x).link q = s.link q := by
  simp [State.setLink, State.link, Pair.get_set_ne _ _ h]

@[simp] theorem State.setGate_gate (s : State) (r : Radio) (x : Gate) : (s.setGate r x).gate r = x := by
  simp [State.setGate, State.gate]

theorem State.setGate_gate_ne (s : State) {r q : Radio} (x : Gate) (h : q ≠ r) : (s.setGate r x).gate q = s.gate q := by
  simp [State.setGate, State.gate, Pair.get_set_ne _ _ h]

@[simp] theorem State.setRecord_record (s : State) (r : Radio) (x : PlanRecord) : (s.setRecord r x).record r = x := by
  simp [State.setRecord, State.record]

theorem State.setRecord_record_ne (s : State) {r q : Radio} (x : PlanRecord) (h : q ≠ r) :
    (s.setRecord r x).record q = s.record q := by
  simp [State.setRecord, State.record, Pair.get_set_ne _ _ h]

@[simp] theorem State.setTracker_tracker (s : State) (t : TrackerId) (x : Tracker) :
    (s.setTracker t x).tracker t = x := by
  simp [State.setTracker, State.tracker]

theorem State.setTracker_tracker_ne (s : State) {t u : TrackerId} (x : Tracker) (h : u ≠ t) :
    (s.setTracker t x).tracker u = s.tracker u := by
  simp [State.setTracker, State.tracker, Triple.get_set_ne _ _ h]

@[simp] theorem State.setChan_chan (s : State) (c : Chan) (x : ChannelRecord) : (s.setChan c x).chan c = x := by
  simp [State.setChan, State.chan]

theorem State.setChan_chan_ne (s : State) {c d : Chan} (x : ChannelRecord) (h : d ≠ c) :
    (s.setChan c x).chan d = s.chan d := by
  have h' : c.val ≠ d.val := fun e => h (Fin.ext e.symm)
  simp [State.setChan, State.chan, Vector.getElem_set_ne, h']

/-- A channel record after a write: the written one at its index, the old one elsewhere. -/
theorem State.setChan_chan_eq (s : State) (c d : Chan) (x : ChannelRecord) :
    (s.setChan c x).chan d = if d = c then x else s.chan d := by
  by_cases h : d = c
  · subst h; simp
  · simp [h, State.setChan_chan_ne]

@[simp] theorem State.setRecent_recent (s : State) (b : Band) (x : List GrantEntry) : (s.setRecent b x).recent b = x := by
  cases b <;> rfl

end Sys2Proof.Machine
end

