-- ==== Sys2Proof/Laws/Frame.lean ====
section
/-! SUPPORT. Which parts of the state each operation may touch: one lemma for each operation, in the order of the model's
files. -/

namespace Sys2Proof.Machine

set_option Elab.async false

variable {s t u : State} {ps qs rs : List Part}

theorem State.agree_refl (s : State) (p : Part) : s.agree s p := by cases p <;> rfl

theorem State.agree_trans {p : Part} (h : s.agree t p) (k : t.agree u p) : s.agree u p := by
  cases p <;> exact Eq.trans h k

theorem touchesOnly.refl (ps : List Part) (s : State) : touchesOnly ps s s := fun p _ => s.agree_refl p

theorem touchesOnly.mono (h : touchesOnly ps s t) (k : ps.all (fun p => decide (p ∈ rs)) = true := by rfl) :
    touchesOnly rs s t := by
  intro p hp
  refine h p fun hm => hp ?_
  simpa using List.all_eq_true.mp k p hm

/-- Two steps in a row, whose parts lie in `rs`. -/
theorem touchesOnly.step (h : touchesOnly ps s t) (k : touchesOnly qs t u)
    (hp : ps.all (fun p => decide (p ∈ rs)) = true := by rfl)
    (hq : qs.all (fun p => decide (p ∈ rs)) = true := by rfl) : touchesOnly rs s u := by
  intro p hpr
  exact State.agree_trans (h.mono hp p hpr) (k.mono hq p hpr)

/-- Two steps in a row that may touch the same parts. -/
theorem touchesOnly.trans (h : touchesOnly ps s t) (k : touchesOnly ps t u) : touchesOnly ps s u :=
  fun p hp => State.agree_trans (h p hp) (k p hp)

theorem touchesOnly.ite {c : Prop} [Decidable c] (h : c → touchesOnly ps s t) (k : ¬ c → touchesOnly ps s u) :
    touchesOnly ps s (if c then t else u) := by
  split
  · exact h ‹_›
  · exact k ‹_›

/-! ## Updates -/

theorem withNow_touches (s : State) (x) : touchesOnly [.now] s (s.withNow x) := by
  intro p hp; cases p <;> first | rfl | exact absurd (by decide) hp
theorem withSsc_touches (s : State) (x) : touchesOnly [.ssc] s (s.withSsc x) := by
  intro p hp; cases p <;> first | rfl | exact absurd (by decide) hp
theorem withBcl_touches (s : State) (x) : touchesOnly [.bcl] s (s.withBcl x) := by
  intro p hp; cases p <;> first | rfl | exact absurd (by decide) hp
theorem withOtk_touches (s : State) (x) : touchesOnly [.otk] s (s.withOtk x) := by
  intro p hp; cases p <;> first | rfl | exact absurd (by decide) hp
theorem withOmap_touches (s : State) (x) : touchesOnly [.omap] s (s.withOmap x) := by
  intro p hp; cases p <;> first | rfl | exact absurd (by decide) hp
theorem withNtab_touches (s : State) (x) : touchesOnly [.ntab] s (s.withNtab x) := by
  intro p hp; cases p <;> first | rfl | exact absurd (by decide) hp
theorem withCpl_touches (s : State) (x) : touchesOnly [.cpl] s (s.withCpl x) := by
  intro p hp; cases p <;> first | rfl | exact absurd (by decide) hp
theorem withAgt_touches (s : State) (x) : touchesOnly [.agt] s (s.withAgt x) := by
  intro p hp; cases p <;> first | rfl | exact absurd (by decide) hp
theorem withLinks_touches (s : State) (x) : touchesOnly [.links] s (s.withLinks x) := by
  intro p hp; cases p <;> first | rfl | exact absurd (by decide) hp
theorem withHost_touches (s : State) (x) : touchesOnly [.host] s (s.withHost x) := by
  intro p hp; cases p <;> first | rfl | exact absurd (by decide) hp
theorem withEvents_touches (s : State) (x) : touchesOnly [.events] s (s.withEvents x) := by
  intro p hp; cases p <;> first | rfl | exact absurd (by decide) hp

theorem setChan_touches (s : State) (c x) : touchesOnly [.omap] s (s.setChan c x) := withOmap_touches _ _
theorem setTracker_touches (s : State) (t x) : touchesOnly [.otk] s (s.setTracker t x) := withOtk_touches _ _
theorem setLink_touches (s : State) (r x) : touchesOnly [.links] s (s.setLink r x) := withLinks_touches _ _
theorem setGate_touches (s : State) (r x) : touchesOnly [.agt] s (s.setGate r x) := withAgt_touches _ _
theorem setRecord_touches (s : State) (r x) : touchesOnly [.cpl] s (s.setRecord r x) := withCpl_touches _ _
theorem setRecent_touches (s : State) (b x) : touchesOnly [.agt] s (s.setRecent b x) := by
  cases b <;> exact withAgt_touches _ _
theorem raise_touches (k d) (s : State) : touchesOnly [.events] s (raise k d s) := withEvents_touches _ _
theorem sendRadio_touches (r x) (s : State) : touchesOnly [.links] s (sendRadio r x s) := setLink_touches _ _ _
theorem answer_touches (c reply) (s : State) : touchesOnly [.host] s (answer c reply s) := withHost_touches _ _

/-! ## Trackers -/

theorem takeHit_touches (f t) (s : State) : touchesOnly [.otk, .events] s (takeHit f t s) := by
  unfold takeHit
  split
  · exact .refl _ _
  · dsimp only; split
    · exact (setTracker_touches _ _ _).step (raise_touches _ _ _)
    · exact (setTracker_touches _ _ _).mono

theorem seed_touches (f) (s : State) : touchesOnly [.otk, .events] s (seed f s) := by
  unfold seed
  split
  · exact (setTracker_touches _ _ _).mono
  · exact (raise_touches _ _ _).mono

theorem toIdle_touches (t) (s : State) : touchesOnly [.otk, .ssc] s (toIdle t s) :=
  (setTracker_touches _ _ _).step (withSsc_touches _ _)

theorem searchTimedOut_touches (t o) (s : State) : touchesOnly [.otk, .ssc, .events] s (searchTimedOut t o s) := by
  unfold searchTimedOut
  split
  · exact (setTracker_touches _ _ _).mono
  · exact (toIdle_touches _ _).step (raise_touches _ _ _)

theorem holdoverExpired_touches (t) (s : State) : touchesOnly [.otk, .ssc, .events] s (holdoverExpired t s) :=
  (toIdle_touches _ _).step (raise_touches _ _ _)

theorem enterHoldover_touches (t o d) (s : State) : touchesOnly [.otk, .events] s (enterHoldover t o d s) :=
  (setTracker_touches _ _ _).step (raise_touches _ _ _)

theorem examineTracker_touches (id ch rdy n cov t) (s : State) :
    touchesOnly [.otk, .events] s (examineTracker id ch rdy n cov s t) := by
  unfold examineTracker
  split
  · exact .refl _ _
  · dsimp only; split
    · split
      · exact enterHoldover_touches _ _ _ _
      · exact (setTracker_touches _ _ _).mono
    · exact (setTracker_touches _ _ _).mono

theorem dwellSpan_touches (id ch rdy n cov) (s : State) :
    touchesOnly [.otk, .events] s (dwellSpan id ch rdy n cov s) :=
  ((examineTracker_touches _ _ _ _ _ _ _).trans (examineTracker_touches _ _ _ _ _ _ _)).trans
    (examineTracker_touches _ _ _ _ _ _ _)

theorem faultTracker_touches (t) (s : State) : touchesOnly [.otk, .events] s (faultTracker s t) := by
  unfold faultTracker
  split
  · exact .refl _ _
  · split
    · exact enterHoldover_touches _ _ _ _
    · exact .refl _ _

theorem faultTrackers_touches (s : State) : touchesOnly [.otk, .events] s (faultTrackers s) :=
  ((faultTracker_touches _ _).trans (faultTracker_touches _ _)).trans (faultTracker_touches _ _)

theorem expirePassed_touches (t) (s : State) : touchesOnly [.otk, .ssc, .events] s (expirePassed s t) := by
  unfold expirePassed
  split
  · exact .refl _ _
  · split
    · split
      · exact holdoverExpired_touches _ _
      · exact .refl _ _
    · exact .refl _ _
    · exact .refl _ _

/-! ## Map and table -/

theorem dwellReport_touches (c o b f) (s : State) : touchesOnly [.omap] s (dwellReport c o b f s) :=
  setChan_touches _ _ _

theorem barChannel_touches (c) (s : State) : touchesOnly [.omap, .events] s (barChannel c s) :=
  (setChan_touches _ _ _).step (raise_touches _ _ _)

theorem mapPass_touches (n) (s : State) : touchesOnly [.omap] s (mapPass n s) := withOmap_touches _ _

theorem tableCompletion_touches (s : State) : touchesOnly [.ntab] s (tableCompletion s) := withNtab_touches _ _

theorem overheardReport_touches (r n c raw a) (s : State) :
    touchesOnly [.ntab, .events] s (overheardReport r n c raw a s) := by
  unfold overheardReport
  dsimp only; split
  · exact (withNtab_touches _ _).mono
  · unfold makeEntry
    dsimp only; split
    · split
      · exact (withNtab_touches _ _).step (raise_touches _ _ _)
      · exact (withNtab_touches _ _).mono
    · exact (withNtab_touches _ _).mono

/-! ## Planner -/

theorem switchOrder_touches (r cur c n src) (s : State) :
    touchesOnly [.cpl, .links] s (switchOrder r cur c n src s) :=
  (sendRadio_touches _ _ _).step (setRecord_touches _ _ _)

theorem radarMove_touches (r) (s : State) : touchesOnly [.cpl, .links, .events] s (radarMove r s) := by
  unfold radarMove
  split
  · exact .refl _ _
  · split
    · split
      · exact (switchOrder_touches _ _ _ _ _ _).mono
      · exact (raise_touches _ _ _).mono
    · exact .refl _ _

theorem moveIfRadar_touches (r c) (s : State) : touchesOnly [.cpl, .links, .events] s (moveIfRadar r c s) :=
  .ite (fun _ => radarMove_touches _ _) (fun _ => .refl _ _)

theorem radarAt_touches (c r) (s : State) : touchesOnly [.cpl, .links, .events] s (radarAt c r s) :=
  .ite (fun _ => radarMove_touches _ _) (fun _ => .refl _ _)

theorem plannerRadar_touches (c) (s : State) : touchesOnly [.cpl, .links, .events] s (plannerRadar c s) :=
  (radarAt_touches _ _ _).trans (radarAt_touches _ _ _)

theorem placeRadio_touches (r c) (s : State) : touchesOnly [.links] s (placeRadio r c s) := setLink_touches _ _ _

theorem closeSwitch_touches (r w c) (s : State) : touchesOnly [.cpl, .links, .events] s (closeSwitch r w c s) := by
  unfold closeSwitch
  refine touchesOnly.trans ?_ (moveIfRadar_touches _ _ _)
  have h (x : PlanRecord) : touchesOnly [.cpl, .links, .events] s ((placeRadio r c s).setRecord r x) :=
    (placeRadio_touches _ _ _).step (setRecord_touches _ _ _)
  split
  · exact (h _).trans (raise_touches _ _ _).mono
  · exact (h _).trans ((raise_touches _ _ _).step (raise_touches _ _ _))

theorem changeOutside_touches (r c) (s : State) : touchesOnly [.cpl, .links, .events] s (changeOutside r c s) := by
  unfold changeOutside
  refine touchesOnly.trans ?_ (moveIfRadar_touches _ _ _)
  exact ((placeRadio_touches _ _ _).step (raise_touches _ _ _) (rs := [.cpl, .links, .events])).trans
    (setRecord_touches _ _ _).mono

theorem propose_touches (r cur c) (s : State) : touchesOnly [.cpl, .events] s (propose r cur c s) := by
  unfold propose
  dsimp only; split
  · exact (setRecord_touches _ _ _).step (raise_touches _ _ _)
  · exact (setRecord_touches _ _ _).mono

theorem actionTest_touches (r cur b) (s : State) :
    touchesOnly [.cpl, .links, .events] s (actionTest r cur b s) := by
  unfold actionTest
  split
  · exact .refl _ _
  · split
    · split
      · exact (switchOrder_touches _ _ _ _ _ _).mono
      · exact (propose_touches _ _ _ _).mono
      · exact .refl _ _
    · exact .refl _ _

theorem planningStep_touches (r cur) (s : State) :
    touchesOnly [.cpl, .links, .events] s (planningStep r cur s) := by
  unfold planningStep
  dsimp only; split
  · exact (setRecord_touches _ _ _).mono
  · unfold sustainAndAct
    exact ((setRecord_touches _ _ _).step (setRecord_touches _ _ _) (rs := [.cpl, .links, .events])).trans
      (actionTest_touches _ _ _ _)

theorem planRadio_touches (r) (s : State) : touchesOnly [.cpl, .links, .events] s (planRadio r s) := by
  unfold planRadio
  split
  · exact .refl _ _
  · split
    · exact .refl _ _
    · split
      · exact radarMove_touches _ _
      · exact planningStep_touches _ _ _

theorem planningPass_touches (s : State) : touchesOnly [.cpl, .links, .events] s (planningPass s) :=
  (planRadio_touches _ _).trans (planRadio_touches _ _)

theorem setMode_touches (m) (s : State) : touchesOnly [.cpl] s (setMode m s) :=
  .ite (fun _ => .refl _ _) (fun _ => withCpl_touches _ _)

theorem holdOnReturn_touches (r) (s : State) : touchesOnly [.cpl] s (holdOnReturn r s) := setRecord_touches _ _ _

theorem defaultOrder_touches (r) (s : State) : touchesOnly [.cpl, .links] s (defaultOrder r s) := by
  unfold defaultOrder
  split
  · split
    · exact (switchOrder_touches _ _ _ _ _ _).trans (setRecord_touches _ _ _).mono
    · exact .refl _ _
  · exact .refl _ _

theorem silenceAction_touches (s : State) : touchesOnly [.cpl, .links, .events] s (silenceAction s) := by
  unfold silenceAction
  dsimp only; split
  · exact (raise_touches _ _ _).mono
  · exact (raise_touches _ _ _).step (setMode_touches _ _)
  · exact (((raise_touches _ _ _).step (defaultOrder_touches _ _) (rs := [.cpl, .links, .events])).trans
      (defaultOrder_touches _ _).mono).trans (setMode_touches _ _).mono

theorem resetPlans_touches (s : State) : touchesOnly [.cpl] s (resetPlans s) := withCpl_touches _ _

theorem hostSwitch_touches (r c n) (s : State) : touchesOnly [.cpl, .links] s (hostSwitch r c n s).2 := by
  unfold hostSwitch
  split
  · exact .refl _ _
  · split
    · exact .refl _ _
    · split
      · exact .refl _ _
      · split
        · exact .refl _ _
        · exact (switchOrder_touches _ _ _ _ _ _).trans (setRecord_touches _ _ _).mono

/-! ## Burst intake and calibration -/

theorem onTally_touches (id f) (s : State) : touchesOnly [.bcl] s (onTally id f s) := withBcl_touches _ _

theorem openTally_touches (d rdy) (s : State) : touchesOnly [.bcl] s (openTally d rdy s) :=
  .ite (fun _ => .refl _ _) (fun _ => withBcl_touches _ _)

theorem markOver_touches (d) (s : State) : touchesOnly [.bcl, .omap, .events] s (markOver d s) := by
  have h : touchesOnly [.bcl, .omap] s ((onTally d.id (fun t => { t with saturated := true }) s).setChan d.chan
      { (onTally d.id (fun t => { t with saturated := true }) s).chan d.chan with overRange := true }) :=
    (onTally_touches _ _ _).step (setChan_touches _ _ _)
  unfold markOver
  dsimp only; split
  · exact h.mono
  · exact h.step (raise_touches _ _ _)

theorem offerBurst_touches (f us) (s : State) : touchesOnly [.bcl, .otk, .events] s (offerBurst f us s) := by
  unfold offerBurst
  split
  · exact (takeHit_touches _ _ _).step (onTally_touches _ _ _)
  · split
    · exact (seed_touches _ _).step (onTally_touches _ _ _)
    · exact (onTally_touches _ _ _).mono

theorem bandTests_touches (f us) (s : State) : touchesOnly [.bcl, .otk, .events] s (bandTests f us s) := by
  unfold bandTests
  split
  · exact (onTally_touches _ _ _).mono
  · split
    · exact (onTally_touches _ _ _).mono
    · split
      · exact offerBurst_touches _ _ _
      · exact (onTally_touches _ _ _).mono

theorem takeBurst_touches (d rdy off dur raw a b) (s : State) :
    touchesOnly [.bcl, .otk, .omap, .events] s (takeBurst d rdy off dur raw a b s) := by
  have h : touchesOnly [.bcl, .otk, .omap, .events] s (if saturatedRaw raw then markOver d s else s) :=
    .ite (fun _ => (markOver_touches _ _).mono) (fun _ => .refl _ _)
  unfold takeBurst
  split
  · exact .refl _ _
  · dsimp only; split
    · exact (onTally_touches _ _ _).mono
    · split
      · exact h.trans (onTally_touches _ _ _).mono
      · exact h.trans (bandTests_touches _ _ _).mono

theorem closeUnder_touches (c rep) (s : State) : touchesOnly [.omap, .events] s (closeUnder c rep s) := by
  unfold closeUnder
  split
  · exact .refl _ _
  · dsimp only; split
    · exact (setChan_touches _ _ _).step (raise_touches _ _ _)
    · exact (setChan_touches _ _ _).mono

theorem handOver_touches (d rdy rep) (s : State) :
    touchesOnly [.bcl, .otk, .omap, .events] s (handOver d rdy rep s) := by
  unfold handOver
  refine touchesOnly.trans (touchesOnly.trans ?_ (closeUnder_touches _ _ _).mono) (dwellSpan_touches _ _ _ _ _ _).mono
  exact ((withBcl_touches _ _).step (dwellReport_touches _ _ _ _ _)).trans (setChan_touches _ _ _).mono

theorem endRun_touches (st) (s : State) : touchesOnly [.bcl, .events] s (endRun st s) :=
  (withBcl_touches _ _).step (raise_touches _ _ _)

theorem endRunForFault_touches (s : State) : touchesOnly [.bcl, .events] s (endRunForFault s) :=
  (withBcl_touches _ _).step (endRun_touches _ _)

theorem calOutcome_touches (d m) (s : State) : touchesOnly [.bcl, .omap, .events] s (calOutcome d m s) := by
  have h (x : Omap) (y : CalRun) : touchesOnly [.bcl, .omap, .events] s
      ((s.withOmap x).withBcl { (s.withOmap x).bcl with cal := y }) :=
    (withOmap_touches _ _).step (withBcl_touches _ _)
  unfold calOutcome
  dsimp only; split
  · split
    · exact (h _ _).trans (endRun_touches _ _).mono
    · exact h _ _
  · exact .refl _ _

/-! ## The schedule -/

theorem orderDwell_touches (d n x) (s : State) : touchesOnly [.ssc] s (orderDwell d n x s) := withSsc_touches _ _

theorem sendOrder_touches (c) (s : State) : touchesOnly [.ssc] s (sendOrder c s) := by
  unfold sendOrder
  split
  · exact orderDwell_touches _ _ _ _
  · exact (withSsc_touches _ _).trans (orderDwell_touches _ _ _ _)
  · exact orderDwell_touches _ _ _ _
  · exact withSsc_touches _ _

theorem startRound_touches (d) (s : State) : touchesOnly [.ssc] s (startRound d s) := withSsc_touches _ _

theorem startRoundIfDue_touches (s : State) : touchesOnly [.ssc] s (startRoundIfDue s) := by
  unfold startRoundIfDue
  split
  · split
    · exact startRound_touches _ _
    · exact .refl _ _
  · exact .refl _ _
  · exact .refl _ _

theorem startRoundIfPassed_touches (s : State) : touchesOnly [.ssc] s (startRoundIfPassed s) := by
  unfold startRoundIfPassed
  split
  · split
    · exact startRound_touches _ _
    · exact .refl _ _
  · exact .refl _ _
  · exact .refl _ _

theorem boundary_touches (s : State) : touchesOnly [.ssc] s (boundary s) :=
  (startRoundIfDue_touches _).trans (sendOrder_touches _ _)

theorem wakeIfParked_touches (s : State) : touchesOnly [.ssc] s (wakeIfParked s) :=
  .ite (fun _ => boundary_touches _) (fun _ => .refl _ _)

theorem applyPlan_touches (s : State) : touchesOnly [.ssc, .events] s (applyPlan s) :=
  (withSsc_touches _ _).step (raise_touches _ _ _)

theorem endRound_touches (s : State) : touchesOnly [.ssc, .events] s (endRound s) := by
  have h (t : State) (k : touchesOnly [.ssc, .events] s t) :
      touchesOnly [.ssc, .events] s (if t.ssc.armed then applyPlan t else t) :=
    .ite (fun _ => k.trans (applyPlan_touches _)) (fun _ => k)
  unfold endRound
  refine h _ (.ite (fun _ => ?_) (fun _ => (withSsc_touches _ _).mono))
  exact (withSsc_touches _ _).step (raise_touches _ _ _)

theorem visit_touches (s : State) : touchesOnly [.ssc, .events] s (visit s).1 := by
  unfold visit
  dsimp only; split
  · exact (withSsc_touches _ _).step (endRound_touches _)
  · exact (withSsc_touches _ _).mono

theorem completeRound_touches (n) (s : State) :
    touchesOnly [.omap, .ntab, .cpl, .links, .events] s (completeRound n s) :=
  ((tableCompletion_touches _).step (mapPass_touches _ _) (rs := [.omap, .ntab, .cpl, .links, .events])).trans
    (planningPass_touches _).mono

theorem completeIf_touches (n) (s : State) :
    touchesOnly [.omap, .ntab, .cpl, .links, .events] s (completeIf n s) := by
  unfold completeIf
  split
  · exact completeRound_touches _ _
  · exact .refl _ _

theorem closeDwell_touches (d rdy rep n) (s : State) :
    touchesOnly [.bcl, .otk, .omap, .ntab, .cpl, .links, .events] s (closeDwell d rdy rep n s) := by
  unfold closeDwell
  refine touchesOnly.trans ?_ (completeIf_touches _ _).mono
  split
  · exact (calOutcome_touches _ _ _).mono
  · exact (handOver_touches _ _ _ _).mono
  · exact (handOver_touches _ _ _ _).mono

theorem closeEnded_touches (rep) (s : State) :
    touchesOnly [.ssc, .bcl, .otk, .omap, .ntab, .cpl, .links, .events] s (closeEnded rep s) := by
  unfold closeEnded
  split
  · exact .refl _ _
  · exact (withSsc_touches _ _).step (closeDwell_touches _ _ _ _ _)

theorem clearFault_touches (s : State) : touchesOnly [.ssc, .events] s (clearFault s) :=
  .ite (fun _ => (withSsc_touches _ _).step (raise_touches _ _ _)) (fun _ => .refl _ _)

theorem openDwell_touches (d) (s : State) :
    touchesOnly [.ssc, .bcl, .otk, .omap, .ntab, .cpl, .links, .events] s (openDwell d s) := by
  unfold openDwell
  refine touchesOnly.trans ?_ (closeEnded_touches _ _)
  exact ((withSsc_touches _ _).step (clearFault_touches _)).trans (openTally_touches _ _ _).mono

theorem readyRecord_touches (id) (s : State) :
    touchesOnly [.ssc, .bcl, .otk, .omap, .ntab, .cpl, .links, .events] s (readyRecord id s) := by
  unfold readyRecord
  split
  · exact .refl _ _
  · split
    · exact openDwell_touches _ _
    · exact .refl _ _
  · exact .refl _ _

theorem burstRecord_touches (id off dur raw a b) (s : State) :
    touchesOnly [.ssc, .bcl, .otk, .omap, .events] s (burstRecord id off dur raw a b s) := by
  unfold burstRecord
  split
  · exact .refl _ _
  · split
    · exact .refl _ _
    · exact (takeBurst_touches _ _ _ _ _ _ _ _).step (wakeIfParked_touches _)

theorem holdClose_touches (id rep) (s : State) : touchesOnly [.ssc] s (holdClose id rep s) := by
  unfold holdClose
  split
  · split
    · exact withSsc_touches _ _
    · exact .refl _ _
  all_goals exact .refl _ _

theorem closeRecord_touches (id rep) (s : State) :
    touchesOnly [.ssc, .bcl, .otk, .omap, .ntab, .cpl, .links, .events] s (closeRecord id rep s) := by
  unfold closeRecord
  split
  · split
    · exact closeEnded_touches _ _
    · exact (holdClose_touches _ _ _).mono
  · exact (holdClose_touches _ _ _).mono

theorem endDwell_touches (d rdy held) (s : State) :
    touchesOnly [.ssc, .bcl, .otk, .omap, .ntab, .cpl, .links, .events] s (endDwell d rdy held s) := by
  have h : touchesOnly [.ssc, .events] s
      (if d.kind = .sweep then visit (s.withSsc { s.ssc with current := none })
        else (s.withSsc { s.ssc with current := none }, none)).1 := by
    split
    · exact (withSsc_touches _ _).step (visit_touches _)
    · exact (withSsc_touches _ _).mono
  unfold endDwell
  dsimp only; split
  · exact (h.step (closeDwell_touches _ _ _ _ _)
      (rs := [.ssc, .bcl, .otk, .omap, .ntab, .cpl, .links, .events])).trans (boundary_touches _).mono
  · exact (h.step (withSsc_touches _ _)
      (rs := [.ssc, .bcl, .otk, .omap, .ntab, .cpl, .links, .events])).trans (boundary_touches _).mono

theorem faultCalibration_touches (s : State) : touchesOnly [.ssc, .bcl, .events] s (faultCalibration s) := by
  unfold faultCalibration
  dsimp only; split
  · exact (withSsc_touches _ _).step (endRunForFault_touches _)
  · exact (withSsc_touches _ _).mono

theorem enterFault_touches (s : State) : touchesOnly [.ssc, .bcl, .otk, .events] s (enterFault s) :=
  (((withSsc_touches _ _).step (raise_touches _ _ _) (rs := [.ssc, .bcl, .otk, .events])).trans
    (faultTrackers_touches _).mono).trans (faultCalibration_touches _).mono

theorem skipDwell_touches (d o) (s : State) :
    touchesOnly [.ssc, .bcl, .omap, .ntab, .cpl, .links, .events] s (skipDwell d o s) := by
  unfold skipDwell
  split
  · exact (visit_touches _).step (completeIf_touches _ _)
  · exact (withSsc_touches _ _).mono
  · exact (calOutcome_touches _ _ _).mono

theorem tuneTimedOut_touches (d o) (s : State) :
    touchesOnly [.ssc, .bcl, .otk, .omap, .ntab, .cpl, .links, .events] s (tuneTimedOut d o s) := by
  have h (x : Ssc) : touchesOnly [.ssc, .bcl, .otk, .omap, .ntab, .cpl, .links, .events] s
      (skipDwell d o (s.withSsc x)) := (withSsc_touches _ _).step (skipDwell_touches _ _ _)
  unfold tuneTimedOut
  dsimp only; split
  · exact h _
  · split
    · exact (h _).trans (enterFault_touches _).mono
    · exact (h _).trans (boundary_touches _).mono

theorem retryInFault_touches (s : State) : touchesOnly [.ssc] s (retryInFault s) := by
  unfold retryInFault
  refine touchesOnly.trans ((startRoundIfDue_touches s).trans ?_) (withSsc_touches _ _)
  split
  · exact .refl _ _
  all_goals exact sendOrder_touches _ _

theorem commitPlan_touches (s : State) : touchesOnly [.ssc, .events] s (commitPlan s) := by
  unfold commitPlan
  refine (startRoundIfPassed_touches s).step ?_ (qs := [.ssc, .events])
  dsimp only; split
  · exact .refl _ _
  · split
    · exact (withSsc_touches _ _).mono
    · exact ((withSsc_touches _ _).step (applyPlan_touches _) (rs := [.ssc, .events])).trans
        (wakeIfParked_touches _).mono

theorem setInterval_touches (n) (s : State) : touchesOnly [.ssc] s (setInterval n s) := by
  unfold setInterval
  exact (((startRoundIfPassed_touches s).trans (withSsc_touches _ _)).trans (withSsc_touches _ _)).trans
    (wakeIfParked_touches _)

/-! ## Calibration runs -/

theorem calibrateWith_touches (p) (s : State) :
    touchesOnly [.ssc, .bcl, .omap, .events] s (calibrateWith p s).2 := by
  have hrun (m k) : touchesOnly [.ssc, .bcl, .omap, .events] s (startRun m k s) := by
    unfold startRun
    dsimp only; split
    · exact (withBcl_touches _ _).step (faultCalibration_touches _)
    · exact ((withBcl_touches _ _).step (withSsc_touches _ _)).trans (wakeIfParked_touches _).mono
  have hrev (k) : touchesOnly [.ssc, .bcl, .omap, .events] s (revertRun k s) :=
    ((withOmap_touches _ _).step (withBcl_touches _ _)).trans (endRun_touches _ _).mono
  unfold calibrateWith
  split
  · exact .refl _ _
  · split
    · exact .refl _ _
    · split
      · split
        · exact hrev _
        · exact hrun _ _
        · exact hrun _ _
      · exact .refl _ _

/-! ## Gates -/

theorem unlinkRemoved_touches (x) (s : State) : touchesOnly [.agt] s (unlinkRemoved x s) :=
  .ite (fun _ => setGate_touches _ _ _) (fun _ => .refl _ _)

theorem unlinkAll_touches (xs : List GrantEntry) (s : State) : touchesOnly [.agt] s (xs.foldr unlinkRemoved s) := by
  induction xs with
  | nil => exact .refl _ _
  | cons x xs ih => exact ih.trans (unlinkRemoved_touches _ _)

theorem makeGrantEntry_touches (b e) (s : State) : touchesOnly [.agt] s (makeGrantEntry b e s) := by
  unfold makeGrantEntry
  split
  · exact setRecent_touches _ _ _
  · split
    · exact (setRecent_touches _ _ _).trans (unlinkRemoved_touches _ _)
    · exact setRecent_touches _ _ _

theorem issue_touches (r b q w n sh) (s : State) : touchesOnly [.agt, .links] s (issue r b q w n sh s) :=
  ((makeGrantEntry_touches _ _ _).trans (setGate_touches _ _ _)).step (sendRadio_touches _ _ _)

theorem computeRequest_touches (r c q) (s : State) : touchesOnly [.agt, .links] s (computeRequest r c q s) := by
  unfold computeRequest
  split
  · exact issue_touches _ _ _ _ _ _ _
  · exact issue_touches _ _ _ _ _ _ _
  · exact (sendRadio_touches _ _ _).mono
  · exact (sendRadio_touches _ _ _).mono

theorem airRequest_touches (r tag l m w c) (s : State) :
    touchesOnly [.agt, .links] s (airRequest r tag l m w c s) := by
  unfold airRequest
  split
  · exact (sendRadio_touches _ _ _).mono
  · split
    · exact (sendRadio_touches _ _ _).mono
    · exact (sendRadio_touches _ _ _).mono
    · exact (sendRadio_touches _ _ _).mono
    · split
      · exact (sendRadio_touches _ _ _).mono
      · exact computeRequest_touches _ _ _ _

theorem closeGrant_touches (r x) (s : State) : touchesOnly [.agt] s (closeGrant r x s) :=
  (withAgt_touches _ _).trans (setGate_touches _ _ _)

theorem airEnd_touches (r tag n) (s : State) : touchesOnly [.agt, .events] s (airEnd r tag n s) := by
  unfold airEnd
  split
  · exact (raise_touches _ _ _).mono
  · split
    · exact (closeGrant_touches _ _ _).mono
    · exact (raise_touches _ _ _).mono

theorem setGateMode_touches (r m) (s : State) : touchesOnly [.agt, .links] s (setGateMode r m s) := by
  unfold setGateMode
  split
  · exact (setGate_touches _ _ _).mono
  · split
    · exact .refl _ _
    · exact (setGate_touches _ _ _).step (sendRadio_touches _ _ _)

theorem enterSafe_touches (r) (s : State) : touchesOnly [.agt] s (enterSafe r s) := setGate_touches _ _ _

theorem leaveSafe_touches (r) (s : State) : touchesOnly [.agt, .links] s (leaveSafe r s) :=
  (setGate_touches _ _ _).step (sendRadio_touches _ _ _)

/-! ## Links -/

theorem linkError_touches (r k) (s : State) : touchesOnly [.links, .events] s (linkError r k s) :=
  (setLink_touches _ _ _).step (raise_touches _ _ _)

theorem takeValid_touches (r) (s : State) : touchesOnly [.links, .agt, .cpl, .events] s (takeValid r s) := by
  unfold takeValid
  split
  · exact (((setLink_touches _ _ _).step (raise_touches _ _ _) (rs := [.links, .agt, .cpl, .events])).trans
      (leaveSafe_touches _ _).mono).trans (holdOnReturn_touches _ _).mono
  · exact (setLink_touches _ _ _).mono

theorem statusTaken_touches (r c b) (s : State) :
    touchesOnly [.links, .agt, .cpl, .events] s (statusTaken r c b s) := by
  unfold statusTaken
  split
  · unfold becomeKnown
    dsimp only; split
    · exact (placeRadio_touches _ _ _).mono
    · exact (placeRadio_touches _ _ _).step (sendRadio_touches _ _ _)
  · split
    · exact .refl _ _
    · split
      · exact (closeSwitch_touches _ _ _ _).mono
      · exact (changeOutside_touches _ _ _).mono

theorem withChan_touches {ps : List Part} (r b) (s : State) (body : Chan → State → State)
    (h : ∀ c, touchesOnly ps s (body c s))
    (k : [Part.links, .events].all (fun p => decide (p ∈ ps)) = true := by rfl) :
    touchesOnly ps s (withChan r b s body) := by
  unfold withChan
  split
  · exact h _
  · exact (linkError_touches _ _ _).mono k

theorem statusChecked_touches (r b c n) (s : State) :
    touchesOnly [.links, .agt, .cpl, .events] s (statusChecked r b c n s) := by
  unfold statusChecked
  refine withChan_touches _ _ _ _ fun c => ?_
  split
  · exact statusTaken_touches _ _ _ _
  · exact (linkError_touches _ _ _).mono

theorem switchedTaken_touches (r c) (s : State) :
    touchesOnly [.links, .agt, .cpl, .events] s (switchedTaken r c s) := by
  unfold switchedTaken
  split
  · exact .refl _ _
  · split
    · exact (closeSwitch_touches _ _ _ _).mono
    · split
      · exact .refl _ _
      · exact (changeOutside_touches _ _ _).mono

theorem silenceExpired_touches (r) (s : State) :
    touchesOnly [.links, .agt, .events] s (silenceExpired r s) :=
  ((setLink_touches _ _ _).step (enterSafe_touches _ _) (rs := [.links, .agt, .events])).trans
    (raise_touches _ _ _).mono

theorem setSilenceLimit_touches (r n) (s : State) :
    touchesOnly [.links, .agt, .events] s (setSilenceLimit r n s) := by
  unfold setSilenceLimit
  dsimp only; split
  · split
    · exact (setLink_touches _ _ _).step (silenceExpired_touches _ _)
    · exact (setLink_touches _ _ _).mono
  · exact (setLink_touches _ _ _).mono

end Sys2Proof.Machine
end

