-- ==== Sys2Proof/Laws/Ops.lean ====
section
/-! SUPPORT. What the shared operations can do: the frame of a command, the frame of a host command, an answer, an event
raised, a record sent, a boundary and the waking of a parked front end, a read transaction, and the step. -/

namespace Sys2Proof.Machine

variable {s s' : State} {t : AT}

/-! ## The frame of a command -/

theorem event_running {body : State → State} (h : s.phase = .running) :
    event t s body = .next (body (s.withNow t)) := by
  simp [event, h]

theorem event_inReset {body : State → State} {c : StartCause} (h : s.phase = .inReset c) :
    event t s body = .next s := by
  simp [event, h]

/-- Everything a command's frame can do. -/
theorem event_cases {body : State → State} (h : event t s body = .next s') :
    (∃ c, s.phase = .inReset c ∧ s' = s) ∨ (s.phase = .running ∧ s' = body (s.withNow t)) := by
  unfold event at h
  split at h
  · exact .inl ⟨_, ‹_›, by simpa using h.symm⟩
  · exact .inr ⟨‹_›, by simpa using h.symm⟩

theorem event_next (body : State → State) : ∃ s', event t s body = .next s' := by
  unfold event
  split <;> exact ⟨_, rfl⟩

theorem event_touches {ps : List Part} {body : State → State} (hb : ∀ u, touchesOnly ps u (body u))
    (h : event t s body = .next s') : touchesOnly (.now :: ps) s s' := by
  rcases event_cases h with ⟨_, _, rfl⟩ | ⟨_, rfl⟩
  · exact .refl _ _
  · exact (show touchesOnly (.now :: ps) s (s.withNow t) from fun p hp =>
      withNow_touches s t p (fun hm => hp (by simp_all))).trans (fun p hp => hb _ p (fun hm => hp (by simp [hm])))

/-! ## The frame of a host command -/

/-- The answer of a command is what its code and its reply make of it. -/
theorem answer_eq (c : InHand) (reply : Code × List Byte) (s : State) :
    answer c reply s
      = s.withHost { s.host with inHand := none, response := some ⟨reply.1, c.code, reply.2⟩ } := rfl

/-- R188: a command in hand whose payload is long enough is carried out and answered. -/
theorem handle_hand {code : Byte} {k n : Nat} {p : List Byte}
    {body : List Byte → State → (Code × List Byte) × State}
    (h : s.inHandIs code p) (hk : code.toNat = k) (hn : n ≤ p.length) :
    handle k n t s body
      = .next (answer ⟨code, p, 0⟩ (body p (s.withNow t)).1 (body p (s.withNow t)).2) := by
  obtain ⟨hp, hc⟩ := h
  match hh : s.host.inHand, hc with
  | some c, hc =>
    simp only [Option.map_some, Option.some.injEq, Prod.mk.injEq] at hc
    obtain ⟨rfl, rfl⟩ := hc
    have : ¬ c.payload.length < n := by omega
    simp [handle, event_running hp, hh, hk, this, answer]

/-- R188: a command in hand whose payload is too short is refused. -/
theorem handle_short {code : Byte} {k n : Nat} {p : List Byte}
    {body : List Byte → State → (Code × List Byte) × State}
    (h : s.inHandIs code p) (hk : code.toNat = k) (hn : p.length < n) :
    handle k n t s body = .next (s.answered t code .badArgument []) := by
  obtain ⟨hp, hc⟩ := h
  match hh : s.host.inHand, hc with
  | some c, hc =>
    simp only [Option.map_some, Option.some.injEq, Prod.mk.injEq] at hc
    obtain ⟨rfl, rfl⟩ := hc
    simp [handle, event_running hp, hh, hk, hn, answer, State.answered, State.withHost, State.withNow]

/-- Everything a host command's frame can do. -/
theorem handle_cases {k n : Nat} {body : List Byte → State → (Code × List Byte) × State}
    (h : handle k n t s body = .next s') :
    s' = s ∨ s' = s.withNow t
      ∨ (∃ c, s.host.inHand = some c ∧ c.code.toNat = k
          ∧ (s' = answer c (.badArgument, []) (s.withNow t)
            ∨ s' = answer c (body c.payload (s.withNow t)).1 (body c.payload (s.withNow t)).2)) := by
  rcases event_cases h with ⟨_, _, rfl⟩ | ⟨_, rfl⟩
  · exact .inl rfl
  · right
    cases hc : s.host.inHand with
    | none => simp [hc]
    | some c =>
      by_cases hk : c.code.toNat = k
      · right
        refine ⟨c, rfl, hk, ?_⟩
        by_cases hn : c.payload.length < n
        · left; simp [hc, hk, hn]
        · right; simp [hc, hk, hn]
      · left; simp [hc, hk]

theorem handle_touches {ps : List Part} {k n : Nat} {body : List Byte → State → (Code × List Byte) × State}
    (hb : ∀ p u, touchesOnly ps u (body p u).2) (h : handle k n t s body = .next s') :
    touchesOnly (.now :: .host :: ps) s s' := by
  have hnow : touchesOnly (.now :: .host :: ps) s (s.withNow t) := fun p hp =>
    withNow_touches s t p (fun hm => hp (by simp_all))
  have hans (c : InHand) (x : Code × List Byte) (u : State) : touchesOnly (.now :: .host :: ps) u (answer c x u) :=
    fun p hp => answer_touches c x u p (fun hm => hp (by simp_all))
  rcases handle_cases h with rfl | rfl | ⟨c, _, _, rfl | rfl⟩
  · exact .refl _ _
  · exact hnow
  · exact hnow.trans (hans _ _ _)
  · exact (hnow.trans (fun p hp => hb _ _ p (fun hm => hp (by simp [hm])))).trans (hans _ _ _)

theorem handle_next (k n : Nat) (body : List Byte → State → (Code × List Byte) × State) :
    ∃ s', handle k n t s body = .next s' := event_next _

/-! ## Events -/

@[simp] theorem raise_set (k : EventKind) (d : Nat) (s : State) :
    (raise k d s).events.set = recordEvent k d s.now s.events.set := rfl
@[simp] theorem raise_mask (k : EventKind) (d : Nat) (s : State) : (raise k d s).events.mask = s.events.mask := rfl
@[simp] theorem raise_attn (k : EventKind) (d : Nat) (s : State) :
    (raise k d s).events.attn = (s.events.attn || enabledIn s.events.mask k) := rfl

/-- The kinds of a set after an occurrence are those before it and the kind raised. -/
theorem recordEvent_kind {k : EventKind} {d : Nat} {now : AT} {set : List EventEntry} {e : EventEntry}
    (h : e ∈ recordEvent k d now set) : e.kind = k ∨ ∃ x ∈ set, x.kind = e.kind := by
  induction set with
  | nil => simp [recordEvent] at h; simp [h]
  | cons x rest ih =>
    simp only [recordEvent] at h
    split at h
    · simp only [List.mem_cons] at h
      rcases h with rfl | h
      · exact .inl rfl
      · exact .inr ⟨e, by simp [h], rfl⟩
    · split at h
      · simp only [List.mem_cons] at h
        rcases h with rfl | rfl | h
        · exact .inl rfl
        · exact .inr ⟨e, by simp, rfl⟩
        · exact .inr ⟨e, by simp [h], rfl⟩
      · simp only [List.mem_cons] at h
        rcases h with rfl | h
        · exact .inr ⟨e, by simp, rfl⟩
        · rcases ih h with h | ⟨y, hy, hk⟩
          · exact .inl h
          · exact .inr ⟨y, by simp [hy], hk⟩

/-! ## Records sent -/

theorem sendRadio_sent (r : Radio) (x : RadioRecord) (s : State) :
    ((sendRadio r x s).link r).sent = (s.link r).sent ++ [x] := by
  simp [sendRadio]

/-- Sending a record changes nothing of a link but the records sent. -/
theorem sendRadio_chan (r q : Radio) (x : RadioRecord) (s : State) :
    ((sendRadio r x s).link q).chan = (s.link q).chan := by
  cases r <;> cases q <;> rfl

/-! ## The arbiter and an answer -/

/-- What the host port holds has no part in a boundary. -/
theorem boundary_withHost (s : State) (x : HostPort) : boundary (s.withHost x) = (boundary s).withHost x := by
  have hs : startRoundIfDue (s.withHost x) = (startRoundIfDue s).withHost x := by
    unfold startRoundIfDue
    cases h : s.ssc.phase <;> simp only [State.withHost_ssc, State.withHost_now, h]
    split <;> simp_all [startRound, State.withSsc, State.withHost]
  have ho : ∀ (c : Choice) (u : State), sendOrder c (u.withHost x) = (sendOrder c u).withHost x := fun c u => by
    cases c <;> rfl
  unfold boundary
  dsimp only
  rw [hs, ho]
  rfl

/-- The work that wakes a parked front end. -/
theorem workDue_iff (s : State) : workDue s = true ↔ s.hasWork := by
  have hw : allTrackers.any (watchDue s) = true ↔ ∃ k, watchDue s k = true := by
    simp only [List.any_eq_true]
    exact ⟨fun ⟨k, _, h⟩ => ⟨k, h⟩, fun ⟨k, h⟩ => ⟨k, by cases k <;> simp [allTrackers], h⟩⟩
  have he : entriesLeft s.ssc = true ↔ s.ssc.phase = .running ∧ s.ssc.position < s.ssc.active.length := by
    unfold entriesLeft
    split <;> simp_all
  have hr : roundIsDue s.ssc s.now = true
      ↔ ∃ ended due, s.ssc.phase = .between ended due ∧ 0 ≤ tdiff s.now due ∧ s.ssc.active ≠ [] := by
    unfold roundIsDue
    split <;> simp_all [reached]
  unfold workDue State.hasWork
  simp only [Bool.or_eq_true, decide_eq_true_eq, hw, he, hr]
  rw [or_assoc, or_assoc, or_comm (a := ∃ ended due, _)]

/-- R19: what waking a parked front end does. -/
theorem wakeIfParked_wakes (u : State) : u.wakesTo (wakeIfParked u) := by
  unfold wakeIfParked State.wakesTo
  exact ⟨fun h => if_pos ⟨h.1, (workDue_iff u).2 h.2⟩, fun h => if_neg fun k => h ⟨k.1, (workDue_iff u).1 k.2⟩⟩

/-- An answer may be made before or after the waking. -/
theorem wakeIfParked_withHost (s : State) (x : HostPort) :
    wakeIfParked (s.withHost x) = (wakeIfParked s).withHost x := by
  unfold wakeIfParked
  split
  · rename_i h
    rw [if_pos (show s.ssc.line = .parked ∧ workDue s = true from h), boundary_withHost]
  · rename_i h
    rw [if_neg (show ¬ (s.ssc.line = .parked ∧ workDue s = true) from h)]

/-- R188, R19: a host command that wakes a parked front end answers the same before the boundary or after it. -/
theorem answer_wakeIfParked (c : InHand) (reply : Code × List Byte) (s : State) :
    answer c reply (wakeIfParked s) = wakeIfParked (answer c reply s) := by
  have h : (wakeIfParked s).host = s.host := (wakeIfParked_touches s .host (by decide)).symm
  unfold answer
  rw [wakeIfParked_withHost, h]

/-! ## A read transaction -/

/-- R189: everything the deselection of a read transaction can do: what stood at its first byte is shifted out, and the
part is reset exactly when that was the OK of a RESET PART that is pending and a byte of it was shifted out. -/
theorem readResponse_cases (extra : Nat) (s : State) : ∃ x : Reading,
    (s.host.reading = some x ∨ (s.host.reading = none ∧ x = readingNow s.host))
    ∧ ((x.returnsOk = true ∧ s.host.resetPending.isSome = true ∧ 1 ≤ extra ∧ readResponse extra s
          = resetPartNow (s.withHost { s.host with reading := none, shiftedOut := 0 :: readBytes extra x.frame }))
      ∨ (¬ (x.returnsOk = true ∧ s.host.resetPending.isSome = true ∧ 1 ≤ extra) ∧ readResponse extra s
          = s.withHost { s.host with reading := none, shiftedOut := 0 :: readBytes extra x.frame })) := by
  refine ⟨s.host.reading.getD (readingNow s.host), ?_, ?_⟩
  · cases s.host.reading <;> simp
  · by_cases h : (s.host.reading.getD (readingNow s.host)).returnsOk = true ∧ s.host.resetPending.isSome = true
      ∧ 1 ≤ extra
    · exact .inl ⟨h.1, h.2.1, h.2.2, by simp [readResponse, h.1, h.2.1, h.2.2]⟩
    · exact .inr ⟨h, by unfold readResponse; simp only [Bool.and_eq_true, decide_eq_true_eq, and_assoc, if_neg h]⟩

/-! ## The step -/

/-- Everything a step can do. -/
theorem step_cases (h : step s = .next s') :
    (s.pending = [] ∧ s' = s) ∨ ∃ c rest, s.pending = c :: rest ∧ exec c (s.withPending rest) = .next s' := by
  unfold step at h
  split at h
  · exact .inl ⟨‹_›, by simpa using h.symm⟩
  · exact .inr ⟨_, _, ‹_›, h⟩

end Sys2Proof.Machine
end

