-- ==== Sys2Proof/WellFormed.lean ====
section
/-! DEFINITION. Which commands are well formed: the operand ranges the spec gives that the operand types do not hold by
themselves. The machine gives every command a meaning, well formed or not. -/

namespace Sys2Proof

/-- Well-formedness of a command. A write transaction carries a byte and does not begin with FFh (R185); a burst lasts
1 to 65535 µs (the burst record's table); a discarded record fails one of the two framing checks (R166, R10). -/
def Instr.wf : Instr → Bool
  | .writeTransaction _ bytes => bytes ≠ [] && bytes.head? ≠ some 0xFF#8
  | .burst _ _ _ duration _ _ _ => duration ≠ 0#16
  | .senseRecordDiscard _ type len => Machine.senseRecordLength type ≠ some len.toNat
  | .linkFramingError _ _ type len => Machine.radioRecordLength type ≠ some len.toNat
  | .fullReset _ | .startInstant _ _ | .readTransaction _ _ | .resetPartDeadline _ | .unknownCommand _
  | .hostSilenceExpiry _ | .readIdentity _ | .readStatus _ | .resetPart _ | .resetMap _ | .setHostSilence _
  | .readEvents _ | .setEventMask _ | .writePlanEntry _ | .clearPlan _ | .commitPlan _ | .readPlan _
  | .setRoundInterval _ | .setWatch _ | .readSchedule _ | .calibrate _ | .calibrateRevert _ | .writeCorrection _
  | .readCalibration _ | .readIntake _ | .setTracking _ | .setTracker _ | .restartTracker _ | .readTracker _
  | .readChannel _ | .readMap _ | .setAveraging _ | .setMargin _ | .setWeights _ | .setBarTime _ | .barChannel _
  | .unbar _ | .readNeighbours _ | .markFriendly _ | .setNeighbourAge _ | .setPlanner _ | .setRadio _
  | .setChannel _ | .acceptProposal _ | .clearHold _ | .readPlanner _ | .setGate _ | .setExclusion _
  | .setLatency _ | .readGate _ | .readGrants _ | .setSilence _ | .readLink _ | .ready _ _ | .close _ _ _ _
  | .dwellEnd _ | .tuneTimeout _ | .closeWaitExpiry _ | .faultRetry _ | .roundDue _ | .watchDue _
  | .emptyPlanTimer _ | .senseTruncation _ | .senseResyncClear _ | .searchTimeout _ _ | .holdoverExpiry _ _
  | .barClockTick _ | .radarBarExpiry _ _ | .status _ _ _ _ | .airRequest _ _ _ _ _ _ _ | .airEnd _ _ _ _
  | .overheard _ _ _ _ _ _ | .radar _ _ _ | .switched _ _ _ | .linkTruncation _ _ | .linkResyncClear _ _
  | .silenceTimerExpiry _ _ | .switchDeadline _ _ | .grantExpiry _ _ | .grantEntryAgeOut _ _ => true

end Sys2Proof
end

