-- ==== Sys2Proof/Tests/Slice0.lean ====
section
/-! SUPPORT. Tests: the ill-formed commands that WellFormed refuses; records read into commands; the worked cases of the
manual, one step each; and for every obligation with hypotheses a state and operands that meet them. -/

namespace Sys2Proof.Tests

open Sys2Proof.Machine

/-! ## Helpers -/

/-- The state after a command (every command answers a next state). -/
def after (i : Instr) (s : State) : State :=
  match exec i s with
  | .next t => t
  | .fault _ => s
  | .refused _ => s

/-- The reset state with every line out of resync. -/
def live : State :=
  { State.reset with
    ssc := { State.reset.ssc with resync := false }
    links := ⟨{ Link.start with resync := false }, { Link.start with resync := false }⟩ }

/-- A command in hand. -/
def hand (code : Byte) (payload : List Byte) (s : State) : State :=
  { s with host := { s.host with inHand := some ⟨code, payload, 900⟩ } }

theorem hand_inHandIs (code : Byte) (payload : List Byte) {s : State} (h : s.phase = .running) :
    (hand code payload s).inHandIs code payload := ⟨h, rfl⟩

/-- The response of the command in hand's handling. -/
def reply (i : Instr) (code : Byte) (payload : List Byte) (s : State) : Option (Code × List Byte) :=
  (after i (hand code payload s)).host.response.map fun r => (r.code, r.payload)

/-- Radio `r` KNOWN on a channel. -/
def on (r : Radio) (c : Chan) (s : State) : State := s.setLink r { s.link r with chan := some c }

/-- A dwell open as the current dwell, its tally empty. -/
def opened (d : Dwell) (ready : AT) (s : State) : State :=
  { s with
    ssc := { s.ssc with current := some ⟨d, .opened ready none⟩ }
    bcl := { s.bcl with tallies := [⟨d.id, d.kind, d.chan, ready, d.lengthMs, ⟨0, 0, 0⟩, ⟨0, 0, 0, 0, 0⟩, false⟩] } }

/-- A dwell ordered as the current dwell. -/
def ordered (d : Dwell) (at' : AT) (s : State) : State :=
  { s with ssc := { s.ssc with current := some ⟨d, .ordered at'⟩ } }

/-- Tracker 0 holding an oven. -/
def tracking (o : Oven) (s : State) : State := s.setTracker .t0 { s.tracker .t0 with oven := some o }

/-- A LOCKED 50 Hz oven. -/
def locked (anchor : AT) (period width guardUs : Nat) (lo hi : Chan) : Oven :=
  { phase := .locked, candidate := .hz50, secondTried := false, period, anchor, lastHit := anchor, width, guardUs
    jitter := 27, hits := 5, misses := 0, lo, hi, hitSets := [] }

def sweep17 : Dwell := ⟨.sweep, 17, 6, 40, none, false⟩

/-! ## Well-formedness: one ill-formed term for each check -/

theorem test_wf_write_empty : (Instr.writeTransaction 0 []).wf = false := by decide
theorem test_wf_write_read_byte : (Instr.writeTransaction 0 [0xFF, 0x01]).wf = false := by decide
theorem test_wf_burst_zero : (Instr.burst 0 1 0 0 50 false false).wf = false := by decide
theorem test_wf_sense_good_frame : (Instr.senseRecordDiscard 0 0xC1 1).wf = false := by decide
theorem test_wf_link_good_frame : (Instr.linkFramingError 0 .r0 0x02 8).wf = false := by decide
theorem test_wf_accepts : (Instr.linkFramingError 0 .r0 0x02 7).wf = true
    ∧ (Instr.senseRecordDiscard 0 0xC4 1).wf = true ∧ (Instr.burst 0 1 0 1 50 false false).wf = true := by decide

/-! ## Decoding: the byte layouts of 08, RECORD LAYOUTS, and the catalogue codes of R190 -/

theorem test_decode_airRequest : radioCommand 9 .r1 0x02 [0x07, 0x0B, 0xB8, 0x00, 0x00, 0x4E, 0x20, 0x01]
    = .airRequest 9 .r1 7 3000 0 20000 1 := by decide
theorem test_decode_overheard : radioCommand 9 .r0 0x04 [0, 0, 0x1E, 0x32, 3, 88, 0, 0, 0x09, 0x60]
    = .overheard 9 .r0 7730 3 88 2400 := by decide
theorem test_decode_status_length : radioCommand 9 .r0 0x01 [0] = .linkFramingError 9 .r0 0x01 1 := by decide
theorem test_decode_burst : senseCommand 9 0xC2 [17, 0x00, 0x46, 0x50, 0x1E, 0xDC, 150, 0x02]
    = .burst 9 17 18000 7900 150 false true := by decide
theorem test_decode_ready : senseCommand 9 0xC1 [5] = .ready 9 5 := by decide
theorem test_decode_host : hostCommand 9 0x10 = .writePlanEntry 9 ∧ hostCommand 9 0x79 = .readLink 9
    ∧ hostCommand 9 0x9A = .unknownCommand 9 := by decide
theorem test_table_has_no_bits (n w : Nat) : decodeTableWord n w = none ∧ live.withFetchWord n w = live := ⟨rfl, rfl⟩

/-! ## Worked cases of the manual, one step each -/

/-- 01, the start of a round: READY(0) at 300 opens dwell 0; its end at 40,300 orders TUNE(1, 1). -/
theorem test_ready_opens : (after (.ready 300 0) live).ssc.current
    = some ⟨⟨.sweep, 0, 0, 40, none, false⟩, .opened 300 none⟩ := by decide
theorem test_dwellEnd_orders_next :
    let t := after (.dwellEnd 40300) (opened ⟨.sweep, 0, 0, 40, none, false⟩ 300 live)
    t.ssc.sent = [.tune 0 0, .tune 1 1] ∧ t.ssc.position = 1
    ∧ t.ssc.ended.map (fun e => (e.dwell.id, e.closeWait)) = some (0, some 42300) := by decide
/-- The same: the timeout of id 3 at 128,000 counts entry 2 as visited. -/
theorem test_tuneTimeout_skips :
    let t := after (.tuneTimeout 128000) (ordered ⟨.sweep, 3, 2, 40, none, false⟩ 126000
      { live with ssc := { live.ssc with position := 2, nextId := 4 } })
    t.ssc.timeouts = 1 ∧ t.ssc.position = 3
    ∧ t.ssc.current = some ⟨⟨.sweep, 4, 3, 40, none, false⟩, .ordered 128000⟩ := by decide
theorem test_tuneTimeout_not_due :
    (after (.tuneTimeout 127999) (ordered ⟨.sweep, 3, 2, 40, none, false⟩ 126000 live)).ssc.timeouts = 0 := by decide

/-- 01, commit against a running round. -/
theorem test_writePlanEntry_clamps : reply (.writePlanEntry 1000) 0x10 [0, 6, 120] live = some (.ok, [100])
    ∧ reply (.writePlanEntry 1000) 0x10 [0, 6, 0] live = some (.ok, [1]) := by decide
theorem test_writePlanEntry_refuses : reply (.writePlanEntry 1000) 0x10 [2, 6, 60] live = some (.badArgument, [])
    ∧ reply (.writePlanEntry 1000) 0x10 [0, 11, 40] live = some (.notPermitted, []) := by decide
theorem test_commitPlan_arms : (after (.commitPlan 1000) (hand 0x12 [] live)).ssc.armed = true := by decide
theorem test_round_end_applies_plan :
    let t := after (.dwellEnd 1460000) (opened ⟨.sweep, 9, 10, 40, none, false⟩ 1420000 { live with
      ssc := { live.ssc with
        intervalMs := 500, roundStart := 1000000, position := 10, plan := [⟨1, 60⟩, ⟨6, 100⟩], armed := true } })
    t.ssc.active = [⟨1, 60⟩, ⟨6, 100⟩] ∧ t.ssc.armed = false ∧ t.ssc.phase = .between 1460000 1500000
    ∧ t.ssc.line = .parked ∧ ⟨.planApplied, 1, 2, 1460000⟩ ∈ t.events.set := by decide

/-- 02, one dwell on index 6. -/
def dwell6 : State :=
  let s := opened sweep17 2000000 (live.setChan 6 { live.chan 6 with
    correction := -2, floor := 44, busyFrame := 40, busyOven := 150, busyOther := 300 })
  tracking (locked 1998000 20000 8000 254 4 10) (s.setRecent .ghz24 [⟨.r0, 2010000, 2013000, false⟩])

/-- The class counts of the first tally. -/
def tallied (s : State) : List (Busy × Counts × Bool) := s.bcl.tallies.map fun t => (t.busy, t.counts, t.saturated)

theorem test_burst_frame : tallied (after (.burst 2001800 17 1500 300 70 false false) dwell6)
    = [(⟨300, 0, 0⟩, ⟨0, 0, 1, 0, 0⟩, false)] := by decide
theorem test_burst_weak_own : tallied (after (.burst 2004600 17 4000 600 50 false false) dwell6)
      = [(⟨0, 0, 0⟩, ⟨0, 1, 0, 0, 0⟩, false)]
    ∧ tallied (after (.burst 2012700 17 10200 2500 90 false false) dwell6)
      = [(⟨0, 0, 0⟩, ⟨1, 0, 0, 0, 0⟩, false)] := by decide
theorem test_burst_oven_other : tallied (after (.burst 2025900 17 18000 7900 150 false false) dwell6)
      = [(⟨0, 7900, 0⟩, ⟨0, 0, 0, 1, 0⟩, false)]
    ∧ tallied (after (.burst 2039000 17 26000 13000 100 false false) dwell6)
      = [(⟨0, 0, 13000⟩, ⟨0, 0, 0, 0, 1⟩, false)] := by decide
theorem test_burst_saturated :
    let t := after (.burst 2031800 17 30000 1800 247 false false) dwell6
    tallied t = [(⟨1800, 0, 0⟩, ⟨0, 0, 1, 0, 0⟩, true)] ∧ (t.chan 6).overRange = true
    ∧ ⟨.range, 1, 6, 2031800⟩ ∈ t.events.set := by decide

/-- 02 and 04: the CLOSE of that dwell with its tally full. -/
def dwell6Ended : State :=
  { dwell6.setRecent .ghz24 [⟨.r0, 2010000, 2013000, false⟩, ⟨.r1, 2012000, 2016000, false⟩] with
    ssc := { dwell6.ssc with current := none, ended := some ⟨sweep17, 2000000, some 2042000, none⟩ }
    bcl := { dwell6.bcl with
      tallies := [⟨17, .sweep, 6, 2000000, 40, ⟨2100, 7900, 13000⟩, ⟨1, 1, 2, 1, 1⟩, true⟩] } }

theorem test_close_hands_over : ((after (.close 2040300 17 47 0) dwell6Ended).bcl.lastHandOver).map
      (fun h => (h.observed, h.covered, h.floorReport)) = some (34000, 6000, some 45) := by decide
theorem test_close_updates_map :
    let c := (after (.close 2040300 17 47 0) dwell6Ended).chan 6
    (c.busyFrame, c.busyOven, c.busyOther, c.floor) = (45, 170, 320, 44) := by decide

/-- 02, a QUICK run with one band out of range: m = 117 gives +3, m = 140 sets BAD and ends the run. -/
def quickRun (id : Byte) (c : Chan) (last : Bool) : State :=
  { live with
    ssc := { live.ssc with ended := some ⟨⟨.reference, id, c, 2, none, last⟩, 40500, none, none⟩ }
    bcl := { live.bcl with cal := ⟨.running, some .quick, 0x00001FFFFF, 2, false⟩ } }

theorem test_close_reference_in_range :
    let t := after (.close 42600 1 0 117) (quickRun 1 0 false)
    (t.chan 0).correction = 3 ∧ (t.chan 12).correction = 3 ∧ (t.chan 13).correction = 0 ∧ t.bcl.cal.remaining = 1 := by
  decide
theorem test_close_reference_out_of_range :
    let t := after (.close 44800 2 0 140) (quickRun 2 13 true)
    (t.chan 12).bad = false ∧ (t.chan 13).bad = true ∧ (t.chan 20).bad = true ∧ (t.chan 21).bad = false
    ∧ t.bcl.cal.status = .bad ∧ ⟨.calibration, 1, 2, 44800⟩ ∈ t.events.set := by decide

/-! 03: phase errors (R49), the lock sequence's bursts 1, 2, 4 and 5, and the misses at a close. -/

theorem test_phaseError_examples :
    phaseError (locked 1000000 20000 8000 400 0 0) 1059700 = -300
    ∧ windowIndex (locked 1000000 20000 8000 400 0 0) 1059700 = 3
    ∧ phaseError (locked 1000000 20000 8000 400 0 0) 995000 = -5000
    ∧ windowIndex (locked 1000000 20000 8000 400 0 0) 995000 = 0 := by decide

/-- The oven of tracker 0 after a burst of this dwell. -/
def ovenAfter (d : Dwell) (ready : AT) (off : BitVec 24) (dur : BitVec 16) (cut : Bool) (s : State) : Option Oven :=
  ((after (.burst (ready + 39000) d.id off dur 150 false cut) (opened d ready s)).tracker .t0).oven

def searching (period : Nat) (anchor : AT) (width jitter guardUs hits : Nat) (lo hi : Chan) : Oven :=
  { phase := .search 5029000, candidate := .hz50, secondTried := false, period, anchor, lastHit := anchor, width
    guardUs, jitter, hits, misses := 0, lo, hi, hitSets := [] }

theorem test_burst_seeds : ovenAfter ⟨.sweep, 1, 8, 40, none, false⟩ 4990000 10000 8000 false live
    = some { searching 20000 5000000 8000 0 200 1 8 8 with hitSets := [⟨1, [5000000]⟩] } := by decide
theorem test_burst_hit_in_search : ovenAfter ⟨.sweep, 2, 9, 40, none, false⟩ 5010000 10180 8100 false
      (tracking (searching 20000 5000000 8000 0 200 1 8 8) live)
    = some { searching 20022 5020180 8025 22 244 2 8 9 with hitSets := [⟨2, [5020000]⟩] } := by decide
theorem test_burst_locks :
    let t := after (.burst 5109000 4 10230 8200 150 false true)
      (opened ⟨.sweep, 4, 10, 40, none, false⟩ 5070000 (tracking (searching 20016 5040150 8019 25 250 3 8 9) live))
    (t.tracker .t0).oven = some { locked 5080230 20019 8019 254 8 10 with
      hits := 4, hitSets := [⟨4, [5080182]⟩] } ∧ ⟨.ovenLocked, 1, 0, 5109000⟩ ∈ t.events.set := by decide
theorem test_burst_hit_in_locked : ovenAfter ⟨.sweep, 5, 9, 40, none, false⟩ 5090000 10280 8050 false
      (tracking { locked 5080230 20019 8019 254 8 10 with hits := 4 } live)
    = some { locked 5100256 20022 8026 254 8 10 with lastHit := 5100280, hitSets := [⟨5, [5100249]⟩] } := by decide

/-- 03, misses and an excused window: of windows 2 and 3 the one under the grant is excused. -/
def watch9Ended : State :=
  let s := tracking (locked 5100256 20022 8026 254 8 10) (live.setRecent .ghz24 [⟨.r1, 5161000, 5163000, false⟩])
  { s with
    ssc := { s.ssc with current := none, ended := some ⟨⟨.watch, 6, 9, 45, some .t0, false⟩, 5130000, none, none⟩ }
    bcl := { s.bcl with tallies := [⟨6, .watch, 9, 5130000, 45, ⟨0, 0, 0⟩, ⟨0, 0, 0, 0, 0⟩, false⟩] } }

theorem test_close_counts_miss :
    (((after (.close 5175300 6 40 0) watch9Ended).tracker .t0).oven).map (·.misses) = some 1 := by decide

/-- R58, hint 00: the 60 Hz candidate is tried after 400 ms; then the tracker goes IDLE with SEARCH_FAILED. -/
theorem test_searchTimeout_alternates :
    (((after (.searchTimeout 5429000 .t0) (tracking (searching 20016 5040150 8019 25 250 3 8 9) live)).tracker .t0).oven).map
      (fun o => (o.candidate, o.period, o.hits, o.secondTried, o.phase)) = some (.hz60, 16667, 1, true, .search 5429000) := by
  decide
theorem test_searchTimeout_fails :
    let t := after (.searchTimeout 5429000 .t0)
      (tracking { searching 20016 5040150 8019 25 250 3 8 9 with secondTried := true } live)
    (t.tracker .t0).oven = none ∧ ⟨.searchFailed, 1, 0, 5429000⟩ ∈ t.events.set := by decide
/-- R62: a holdover of 2000 ms ends with OVEN_GONE. -/
theorem test_holdoverExpiry :
    let s := tracking { locked 1000000 20000 8000 400 4 8 with phase := .holdover 1000000 } live
    ((after (.holdoverExpiry 3000000 .t0) s).tracker .t0).oven = none
    ∧ after (.holdoverExpiry 2999999 .t0) s = s.withNow 2999999 := by decide

/-! 04: one pass, and the radar reports. -/

def heardOn (network : BitVec 32) (c : Chan) (level share : Nat) (friendly : Bool) : Neighbour :=
  ⟨network, c, level, share, 0, ⟨0, 0⟩, ⟨0, 0⟩, .r0, friendly⟩

def passCase : State :=
  let s := tracking (locked 5100256 20022 8026 254 4 10) live
  let s := s.setChan 6 { s.chan 6 with busyFrame := 45, busyOven := 170, busyOther := 320 }
  let s := s.setChan 0 { s.chan 0 with busyFrame := 80, busyOther := 10 }
  let s := s.setChan 13 { s.chan 13 with busyFrame := 120 }
  { s with ntab := { s.ntab with entries := [heardOn 1 6 90 300 false, heardOn 2 6 70 410 false, heardOn 3 8 100 120 false,
      heardOn 4 6 110 500 true, heardOn 5 3 80 200 false, heardOn 6 11 95 250 false, heardOn 7 13 84 160 false] } }

/-- Oven cost, pressure and load. -/
def loads (s : State) (c : Chan) : Nat × Nat × Nat := ((s.chan c).ovenCost, (s.chan c).pressure, (s.chan c).load)

theorem test_pass_loads :
    let t := mapPass 7 passCase
    loads t 0 = (0, 60, 150) ∧ loads t 6 = (427, 270, 1000) ∧ loads t 13 = (0, 100, 220) := by decide

/-- The bar clock at a reading. -/
def atSecond (n : Nat) (s : State) : State := { s with omap := { s.omap with barClock := n } }

theorem test_radar_bars : ((after (.radar 1 .r1 13) (atSecond 5000 live)).chan 13).barredUntil = some 6800
    ∧ ((after (.radar 1 .r1 13) (atSecond 5400 (live.setChan 13 { live.chan 13 with barredUntil := some 7300 }))).chan
        13).barredUntil = some 7300 := by decide
theorem test_radarBarExpiry :
    let s := live.setChan 13 { live.chan 13 with barredUntil := some 7100 }
    ((after (.radarBarExpiry 2 13) (atSecond 7099 s)).chan 13).barredUntil = some 7100
    ∧ ((after (.radarBarExpiry 2 13) (atSecond 7100 s)).chan 13).barredUntil = none := by decide

/-! 05: a report of a key in the table, and one of a new key; a round completion. -/

def tableCase : State :=
  let s := (live.setChan 3 { live.chan 3 with correction := 2 }).setChan 13 { live.chan 13 with correction := -1 }
  atSecond 2000 { s with ntab := { s.ntab with
    entries := [heardOn 6015 10 95 0 false, { heardOn 7730 3 80 0 true with accumulator := 1200 }], changeNumber := 812 } }

theorem test_overheard_refreshes :
    let t := after (.overheard 2000300000 .r0 7730 3 88 2400) tableCase
    t.ntab.entries.map (fun e => (e.network, e.level, e.accumulator)) = [(7730, 90, 3600), (6015, 95, 0)]
    ∧ t.ntab.changeNumber = 813 := by decide
theorem test_overheard_makes :
    ((after (.overheard 2000303000 .r1 7730 13 70 900) tableCase).ntab.entries.head?).map
      (fun e => (e.chan, e.level, e.share, e.accumulator, e.reporter, e.friendly)) = some (13, 69, 0, 900, .r1, true) := by
  decide
theorem test_markFriendly : reply (.markFriendly 9) 0x51 [0, 0, 0x1E, 0x32, 0] tableCase = some (.ok, [1]) := by decide

theorem test_tableCompletion :
    let e := fun (k : BitVec 32) share acc sec =>
      { heardOn k 6 90 share false with accumulator := acc, latest := ⟨0, sec⟩ }
    let t := tableCompletion (atSecond 2000 { live with
      now := 2000600000
      ntab := ⟨[e 1 12 3600 2000, e 2 300 210000 2000, e 3 200 0 1700, e 4 0 0 1699], 2000100000, 816, 300⟩ })
    t.ntab.entries.map (fun x => (x.network, x.share, x.accumulator)) = [(1, 11, 0), (2, 330, 0), (3, 150, 0)]
    ∧ t.ntab.changeNumber = 817 := by decide

/-! 06: a move in AUTO mode (passes 41, 43, 46 and 47), its close, and a radar move in FIXED mode. -/

/-- Loads stored for channels. -/
def withLoads (l : List (Chan × Nat)) (s : State) : State :=
  l.foldl (fun s p => s.setChan p.1 { s.chan p.1 with load := p.2 }) s

def autoCase (second : Nat) (candidate : Option Chan) (sustain : Nat) (l6 l8 l10 : Nat) : State :=
  let s := withLoads [(6, l6), (7, 900), (8, l8), (9, 900), (10, l10), (0, 300), (1, 280)] (on .r1 1 (on .r0 6 live))
  let s := s.setRecord .r0 { s.record .r0 with candidate, sustain, lastSwitch := some ⟨0, 1003⟩ }
  atSecond second { s with now := 1064400000, cpl := { s.cpl with mode := .auto } }

/-- Candidate and sustain of radio 0 after the pass. -/
def sustained (s : State) : Option Chan × Nat :=
  (((planningPass s).record .r0).candidate, ((planningPass s).record .r0).sustain)

theorem test_pass_sustain : sustained (autoCase 1046 (some 8) 1 610 450 445) = (some 10, 1)
    ∧ sustained (autoCase 1052 (some 10) 2 585 450 440) = (none, 0)
    ∧ sustained (autoCase 1061 (some 10) 2 625 455 420) = (some 10, 3) := by decide
theorem test_pass_orders :
    let t := planningPass (autoCase 1064 (some 10) 3 615 450 425)
    (t.link .r0).sent = [.switch 10 5] ∧ (t.record .r0).inFlight = some ⟨10, 5, 1065912000, .planner, 6⟩ := by decide
theorem test_switched_closes :
    let s := on .r0 6 live
    let t := after (.switched 1064980000 .r0 10)
      (s.setRecord .r0 { s.record .r0 with inFlight := some ⟨10, 5, 1065912000, .planner, 6⟩ })
    (t.link .r0).chan = some 10 ∧ (t.record .r0).inFlight = none ∧ ⟨.switchDone, 1, 0, 1064980000⟩ ∈ t.events.set := by
  decide
theorem test_radar_moves :
    let s := withLoads [(13, 220), (14, 180), (15, 260), (21, 90)]
      (withLoads (allChans.map fun c => (c, 300)) (on .r1 21 (on .r0 3 live)))
    let t := after (.radar 1500000000 .r1 21) (s.setChan 13 { s.chan 13 with heldOut := true })
    (t.link .r1).sent = [.switch 14 1] ∧ (t.record .r1).inFlight = some ⟨14, 1, 1501102400, .radar, 21⟩ := by decide
theorem test_switchDeadline :
    let s := on .r1 21 live
    let t := after (.switchDeadline 1501102400 .r1)
      (s.setRecord .r1 { s.record .r1 with inFlight := some ⟨14, 1, 1501102400, .radar, 21⟩ })
    (t.record .r1).inFlight = none ∧ ⟨.switchFailed, 1, 1, 1501102400⟩ ∈ t.events.set := by decide
theorem test_setChannel_orders : reply (.setChannel 1000) 0x62 [0, 8, 0] (on .r0 6 live)
      = some (.ok, bAT (1000 + 1512000))
    ∧ reply (.setChannel 1000) 0x62 [0, 6, 0] (on .r0 6 live) = some (.badArgument, [])
    ∧ reply (.setChannel 1000) 0x62 [0, 20, 0] (on .r0 6 live) = some (.notEligible, []) := by decide
theorem test_acceptProposal_wrongState : reply (.acceptProposal 1000) 0x63 [0] (on .r0 6 live) = some (.wrongState, []) := by
  decide

/-! 07: one tracker, three requests; two trackers and a short grant; exclusion; AIR END and ageing. -/

def oneTracker : State := tracking (locked 1000000 20000 8200 400 4 8) (on .r1 21 (on .r0 6 live))
def twoTrackers : State :=
  oneTracker.setTracker .t1 { oneTracker.tracker .t1 with oven := some (locked 1006667 20000 8000 400 4 8) }

/-- The records sent to radio 0 and the start, length and expiry in its slot. -/
def answers (s : State) : List RadioRecord × Option (AT × Nat × AT) :=
  ((s.link .r0).sent, (s.gate .r0).slot.map fun g => (g.start, g.length, g.expiry))

theorem test_airRequest_grant_waits : answers (after (.airRequest 1002980 .r0 7 3000 0 20000 0) oneTracker)
    = ([.grant 7 5600 3000], some (1008600, 3000, 1012100)) := by decide
theorem test_airRequest_wait_tooLong : answers (after (.airRequest 1012980 .r0 8 12000 0 10000 0) oneTracker)
      = ([.wait 8 15600], none)
    ∧ answers (after (.airRequest 1012980 .r0 8 12000 0 10000 0)
        (tracking (locked 1000000 20000 12000 400 4 8) oneTracker)) = ([.refuse 8 .tooLong 7200], none) := by decide
theorem test_airRequest_urgent : answers (after (.airRequest 1014980 .r0 9 5000 0 2000 1) oneTracker)
      = ([.grant 9 0 5000], some (1015000, 5000, 1020500))
    ∧ answers (after (.airRequest 1014980 .r0 9 5000 0 2000 0) oneTracker) = ([.wait 9 13600], none) := by decide
theorem test_airRequest_short : answers (after (.airRequest 1002980 .r0 7 6000 2000 20000 0) twoTrackers)
      = ([.short 7 12067 4533], some (1015067, 4533, 1020100))
    ∧ answers (after (.airRequest 1002980 .r0 7 6000 5000 20000 0) twoTrackers) = ([.wait 7 25600], none) := by decide
theorem test_airRequest_exclusion :
    let s := on .r1 11 oneTracker
    let t := after (.airRequest 1002980 .r0 3 3000 0 20000 0)
      ((s.setGate .r1 { s.gate .r1 with slot := some ⟨40, .normal, 1003000, 7000, false, 1010500, true⟩ }).setRecent .ghz24
        [⟨.r1, 1003000, 1010000, true⟩])
    answers t = ([.grant 3 7000 3000], some (1010000, 3000, 1013500))
    ∧ t.recent .ghz24 = [⟨.r1, 1003000, 1010000, true⟩, ⟨.r0, 1010000, 1013000, true⟩] := by decide

/-- Radio 0 with its grant of tag 7 outstanding. -/
def granted : State :=
  (oneTracker.setGate .r0 { oneTracker.gate .r0 with slot := some ⟨7, .normal, 1008600, 3000, false, 1012100, true⟩ }).setRecent
    .ghz24 [⟨.r0, 1008600, 1011600, true⟩]

theorem test_airEnd_shortens :
    let t := after (.airEnd 1011050 .r0 7 2400) granted
    (t.gate .r0).slot = none ∧ t.recent .ghz24 = [⟨.r0, 1008600, 1011000, false⟩] := by decide
theorem test_airEnd_stray : ⟨.strayEnd, 1, 0, 1011050⟩ ∈ (after (.airEnd 1011050 .r0 8 2400) granted).events.set
    ∧ ((after (.airEnd 1011050 .r0 8 2400) granted).gate .r0).slot = (granted.gate .r0).slot := by decide
theorem test_grantExpiry :
    let t := after (.grantExpiry 1012100 .r0) granted
    (t.gate .r0).slot = none ∧ t.recent .ghz24 = [⟨.r0, 1008600, 1011600, false⟩]
    ∧ ⟨.grantExpired, 1, 0, 1012100⟩ ∈ t.events.set := by decide
theorem test_grantEntryAgeOut : (after (.grantEntryAgeOut 1211600 .ghz24) granted).recent .ghz24 = granted.recent .ghz24
    ∧ (after (.grantEntryAgeOut 1211601 .ghz24) granted).recent .ghz24 = [] := by decide

/-! 07 and 08: a gate through silence; a radio restarts. -/

def silent : State :=
  let s := (on .r1 21 live).setLink .r1 { (on .r1 21 live).link .r1 with silent := true }
  s.setGate .r1 { s.gate .r1 with mode := .safe .gateHeld }

theorem test_silenceTimerExpiry :
    let s := on .r1 21 live
    let t := after (.silenceTimerExpiry 2001000 .r1) (s.setLink .r1 { s.link .r1 with timer := some 2001000 })
    (t.gate .r1).mode = .safe .gateOpen ∧ (t.link .r1).silent = true ∧ ⟨.radioSilent, 1, 1, 2001000⟩ ∈ t.events.set := by
  decide
theorem test_setGate_in_safe :
    let t := after (.setGate 2002000) (hand 0x70 [1, 0] silent)
    (t.gate .r1).mode = .safe .gateOpen ∧ (t.link .r1).sent = [] := by decide
theorem test_airEnd_returns :
    let t := after (.airEnd 2005000 .r1 5 4000) silent
    (t.gate .r1).mode = .host .gateHeld ∧ (t.link .r1).sent = [.gateNotice .gateHeld]
    ∧ t.events.set.map (fun e => (e.kind, e.detail)) = [(.start, 1), (.strayEnd, 1), (.radioBack, 1)] := by decide
theorem test_linkTruncation :
    let t := after (.linkTruncation 11201000 .r1) silent
    (t.link .r1).errors = 1 ∧ (t.link .r1).lastError = some (.truncated, 11201000) ∧ (t.link .r1).silent = true := by decide
theorem test_status_moves_band :
    let t := after (.status 11350000 .r0 1 14) (on .r0 6 live)
    (t.link .r0).chan = some 14 ∧ (t.link .r0).timer = some 11850000 ∧ ⟨.channelMismatch, 1, 0, 11350000⟩ ∈ t.events.set := by
  decide
theorem test_status_makes_known :
    let t := after (.status 4000 .r1 1 14) live
    (t.link .r1).chan = some 14 ∧ (t.link .r1).sent = [.gateNotice .gateOpen] ∧ (t.record .r1).lastSwitch = none := by decide
theorem test_airRequest_unknown : ((after (.airRequest 3000 .r1 5 10 0 0 0) live).link .r1).sent
    = [.refuse 5 .unknown 0] := by decide

/-! 09: commands, reads and an overrun; RESET PART; the host falls silent. 10: the mask. -/

theorem test_write_taken :
    let t := after (.writeTransaction 50000000 [0x10, 3, 0, 1, 60])
      { live with host := { live.host with limitS := 30, timer := some 70000000 } }
    t.host.inHand = some ⟨0x10, [0, 1, 60], 50000000⟩ ∧ t.host.timer = some 80000000 ∧ t.host.taken = 1 := by decide
theorem test_write_overrun_malformed :
    (after (.writeTransaction 50001050 [0x62, 0]) (hand 0x12 [] live)).host.overruns = 1
    ∧ (after (.writeTransaction 50002000 [0x10, 3, 0]) live).host.frameErrors = 1 := by decide
theorem test_read_not_ready : (after (.readTransaction 50000120 (.deselection 5)) (hand 0x10 [0, 1, 60] live)).host.shiftedOut
    = [0, 0x80, 0x10, 0, 0, 0] := by decide
theorem test_read_response : (after (.readTransaction 50000400 (.deselection 5))
      { live with host := { live.host with response := some ⟨.ok, 0x10, [60]⟩ } }).host.shiftedOut
    = [0, 0x00, 0x10, 1, 60, 0] := by decide
/-- R189: a read begun before the OK of RESET PART is ready returns NOT READY to its end, and resets nothing. -/
theorem test_read_begun_before_ready :
    let s := after (.readTransaction 900000010 .firstByte) (hand 0x03 [] live)
    let t := after (.readTransaction 900000800 (.deselection 3)) (after (.resetPart 900000050) s)
    s.host.reading = some ⟨[0x80, 0x03, 0x00], false⟩ ∧ t.host.shiftedOut = [0, 0x80, 0x03, 0x00]
    ∧ t.host.resetPending = some 900100050 ∧ t.host.reading = none := by decide
theorem test_unknownCommand : reply (.unknownCommand 50003010) 0x9A [] live = some (.unknownCommand, []) := by decide
theorem test_resetPart : (after (.resetPart 900000050) (hand 0x03 [] live)).host.resetPending = some 900100050 := by decide
theorem test_read_resets :
    let s := live.setChan 3 { live.chan 3 with correction := 4 }
    let t := after (.readTransaction 900000800 (.deselection 3)) { s with
      ssc := { s.ssc with nextId := 77 }
      host := { s.host with resetPending := some 900100050, response := some ⟨.ok, 0x03, []⟩ } }
    t.now = 0 ∧ t.host.cause = .hostReset ∧ (t.chan 3).correction = 4 ∧ t.ssc.sent = [.tune 77 0]
    ∧ t.host.shiftedOut = [0, 0x00, 0x03, 0] ∧ t.events.set = [⟨.start, 1, 3, 0⟩] := by decide
theorem test_hostSilence_defaults_ineligible :
    let s := on .r1 11 (on .r0 2 live)
    let s := s.setRecord .r0 { s.record .r0 with defaultChan := some 8 }
    let t := after (.hostSilenceExpiry 160000000) { s with
      cpl := { s.cpl with action := .defaults }, host := { s.host with limitS := 60, timer := some 160000000 } }
    t.cpl.mode = .fixed ∧ (t.record .r0).inFlight = none ∧ t.host.timer = none
    ∧ ⟨.hostSilent, 1, 2, 160000000⟩ ∈ t.events.set := by decide
theorem test_readEvents : reply (.readEvents 7) 0x08 [] live = some (.ok, [1, 1, 1, 1, 0, 0, 0, 0])
    ∧ (after (.readEvents 7) (hand 0x08 [] live)).events.attn = false := by decide
theorem test_setEventMask : reply (.setEventMask 7) 0x09 [0x01, 0xFD, 0xFF, 0xFF] live = some (.ok, [0x01, 0xFD, 0xFF, 0xFF])
    ∧ enabledIn (after (.setEventMask 7) (hand 0x09 [0x01, 0xFD, 0xFF, 0xFF] live)).events.mask .radarBar = false := by
  decide
theorem test_readIdentity : reply (.readIdentity 7) 0x01 [] live = some (.ok, [0x04, 0x30, 0x02, 0, 0]) := by decide

/-! ## Witnesses: for each obligation with hypotheses, a state and operands that meet them, each clause's in turn -/

/-- A state with an oven tracked, a grant outstanding and a command queued. -/
def queued : State := granted.withPending [.barClockTick 1000000]

theorem witness_StepRunsFrontCommand : queued.pending = .barClockTick 1000000 :: [] := rfl
theorem witness_EmptyQueueIdles : live.pending = [] := rfl
theorem witness_step : step queued = .next (after (.barClockTick 1000000) granted) := rfl
theorem witness_StepKeepsEventSetAndAttn : EventsInv queued := by unfold EventsInv; decide
theorem witness_StepKeepsSilenceWithSafe : SilenceInv queued := fun r => by cases r <;> decide
theorem witness_StepKeepsNeighbourTable : TableInv queued := by unfold TableInv; decide
theorem witness_StepKeepsGrantRanges : GateInv queued := by
  refine ⟨fun b => by cases b <;> decide, fun r g h => ?_⟩
  cases r
  · cases h; decide
  · cases h
theorem witness_StepKeepsMapRanges : MapInv queued := by
  refine ⟨?_, by decide⟩
  show ∀ c : Chan, _ ∧ _
  decide
theorem witness_StepKeepsTrackerRanges : TrackerInv queued := by
  refine ⟨by unfold TrackSettings.ok; decide, fun t => ?_⟩
  cases t
  · exact ⟨by decide, by decide, fun o h => by cases h; unfold Oven.ok; decide⟩
  · exact ⟨by decide, by decide, fun o h => by cases h⟩
  · exact ⟨by decide, by decide, fun o h => by cases h⟩
theorem witness_StepKeepsSchedule : ScheduleInv queued := by
  refine ⟨by unfold DomainInv; decide, ?_⟩
  unfold planOk
  decide
theorem witness_StepKeepsPlannerRanges : PlannerInv queued := by
  refine ⟨by decide, by decide, by decide, by decide, fun r => ?_⟩
  cases r <;> exact ⟨by decide, by decide, by decide, fun w h => by cases h⟩

/-- A full reset in force. -/
def inReset : State := { live with phase := .inReset .resetLine }

theorem witness_FullResetHoldsNothing : inReset.phase = .inReset .resetLine ∧ (∀ p, Instr.dwellEnd 5 ≠ .fullReset p)
    ∧ ∀ d m, Instr.dwellEnd 5 ≠ .startInstant d m := ⟨rfl, fun _ h => (nomatch h), fun _ _ h => (nomatch h)⟩
theorem witness_StartInstantBeginsWork : inReset.phase = .inReset .resetLine ∧ live.phase = .running := ⟨rfl, rfl⟩
/-- RESET PART pending, its OK ready, and a read transaction whose first byte came before it. -/
def restarting (reading : Option Reading) : State :=
  { live with host := { live.host with resetPending := some 900100050, response := some ⟨.ok, 0x03, []⟩, reading } }

theorem witness_ResetPartCarriedOut :
    let early : Reading := ⟨[0x80, 0x03, 0x00], false⟩
    (restarting none).phase = .running ∧ (restarting none).host.resetPending = some 900100050
    ∧ (restarting none).host.reading = none ∧ (restarting (some early)).host.reading = some early ∧ 1 ≤ 1
    ∧ 0 ≤ tdiff 900100050 900100050 ∧ tdiff 900100049 900100050 < 0
    ∧ (after (.readTransaction 7 (.deselection 3)) (restarting none)).host.shiftedOut = [0, 0x00, 0x03, 0x00]
    ∧ (after (.readTransaction 7 (.deselection 2)) (restarting (some early))).host.shiftedOut = [0, 0x80, 0x03] := by
  decide
theorem witness_ResetCommands : (hand 0x03 [] live).inHandIs 0x03 [] ∧ (hand 0x04 [] live).inHandIs 0x04 [] :=
  ⟨hand_inHandIs _ _ rfl, hand_inHandIs _ _ rfl⟩
theorem witness_WriteTransactionTakesFrame : live.phase = .running ∧ (0x10 : Byte) ≠ 0xFF
    ∧ ([0, 1, 60] : List Byte).length = (3 : Byte).toNat ∧ live.host.inHand = none ∧ live.host.resetPending = none
    ∧ (hand 0x12 [] live).host.inHand ≠ none ∧ ([0, 1, 60] : List Byte).length ≠ (2 : Byte).toNat := by decide
theorem witness_ReadTransactionShiftsOutResponse : live.phase = .running ∧ live.host.resetPending = none
    ∧ live.host.reading = none
    ∧ (after (.readTransaction 5 .firstByte) live).host.reading = some ⟨[0x80, 0x00, 0x00], false⟩ := by decide
theorem witness_ShortOrUnknownCommandRefused :
    ((0x05, 2, Instr.setHostSilence) ∈ catalogueRows ∧ ([1] : List Byte).length < 2 ∧ (hand 0x05 [1] live).inHandIs 0x05 [1])
    ∧ (∀ row ∈ catalogueRows, row.1 ≠ 0x9A) ∧ (hand 0x9A [] live).inHandIs 0x9A [] :=
  ⟨⟨by simp [catalogueRows], by decide, hand_inHandIs _ _ rfl⟩, by simp [catalogueRows], hand_inHandIs _ _ rfl⟩
theorem witness_SetHostSilenceStoresLimit :
    let s := hand 0x05 [1, 44] live
    s.phase = .running ∧ s.host.inHand = some ⟨0x05, 1 :: 44 :: [], 900⟩ := ⟨rfl, rfl⟩

/-- The host-silence timer at its expiry, with an action; both radios have a default channel. -/
def hostSilent (a : SilenceAction) : State :=
  let s := on .r1 21 (on .r0 3 live)
  let s := s.setRecord .r1 { s.record .r1 with defaultChan := some 13 }
  let s := s.setRecord .r0 { s.record .r0 with defaultChan := some 8 }
  { s with cpl := { s.cpl with action := a }, host := { s.host with limitS := 60, timer := some 160000000 } }

theorem witness_HostSilenceExpires : ∀ a, (hostSilent a).phase = .running ∧ (hostSilent a).host.timer = some 160000000
    ∧ (hostSilent a).cpl.action = a := fun _ => ⟨rfl, rfl, rfl⟩
theorem witness_HostSilenceExpires_due : 0 ≤ tdiff 160000000 160000000 ∧ tdiff 159999999 160000000 < 0
    ∧ live.host.timer = none := by decide
theorem witness_HostSilenceExpires_default :
    let s := hostSilent .defaults
    (s.record .r0).defaultChan = some 8 ∧ (s.link .r0).chan = some 3 ∧ gateServes (s.gate .r0) = true
    ∧ (s.record .r0).inFlight = none ∧ eligible s .r0 8 = true ∧ (8 : Chan) ≠ 3
    ∧ (s.record .r1).defaultChan = some 13 ∧ (s.link .r1).chan = some 21 ∧ gateServes (s.gate .r1) = true
    ∧ (s.record .r1).inFlight = none ∧ eligible s .r1 13 = true ∧ (live.record .r1).defaultChan = none := by decide
theorem witness_EventRaisedIsRecorded : live.events.set.Pairwise (fun a b => a.kind.code < b.kind.code)
    ∧ (∀ e ∈ live.events.set, e.kind ≠ .radarBar) ∧ ∃ e ∈ live.events.set, e.kind = .start := by decide
theorem witness_EventCommands : (hand 0x08 [] live).inHandIs 0x08 []
    ∧ (hand 0x09 [1, 2, 3, 4] live).inHandIs 0x09 [1, 2, 3, 4] := ⟨hand_inHandIs _ _ rfl, hand_inHandIs _ _ rfl⟩

theorem witness_WritePlanEntry_inHand (p : List Byte) : (hand 0x10 p live).inHandIs 0x10 p := hand_inHandIs _ _ rfl
theorem witness_WritePlanEntryChecksAndWrites :
    let s := { live with ssc := { live.ssc with plan := [⟨1, 60⟩] } }
    { s.ssc with armed := true }.armed = true ∧ s.ssc.armed = false ∧ 37 < (38 : Byte).toNat
    ∧ (s.chan 11).permitted = false ∧ (11 : Chan).val = (11 : Byte).toNat
    ∧ (s.chan 37).permitted = true ∧ (37 : Chan).val = (37 : Byte).toNat ∧ 31 < (32 : Byte).toNat
    ∧ s.ssc.plan.length < (2 : Byte).toNat ∧ (0 : Byte).toNat < s.ssc.plan.length
    ∧ (1 : Byte).toNat ≤ 31 ∧ (1 : Byte).toNat = s.ssc.plan.length := by decide

/-- The schedule at another phase. -/
def atPhase (x : RoundPhase) : State := { live with ssc := { live.ssc with phase := x } }
/-- The front end parked, the active plan empty, one entry pending. -/
def parkedEmpty : State :=
  { live with ssc := { live.ssc with
    active := [], plan := [⟨1, 60⟩], phase := .stopped 5000000, line := .parked, current := none } }

theorem no_watch_due : ∀ k, watchDue (parkedEmpty.withNow 2000) k = false := fun k => by cases k <;> decide

theorem witness_ClearAndCommitPlan :
    (hand 0x11 [] live).inHandIs 0x11 [] ∧ (hand 0x12 [] live).inHandIs 0x12 []
    ∧ { live.ssc with armed := true }.armed = true ∧ live.ssc.armed = false ∧ live.ssc.phase = .running
    ∧ (atPhase (.between 1000 2000)).ssc.phase = .between 1000 2000 ∧ tdiff 2000 2000 ≤ 0 ∧ live.ssc.line ≠ .parked
    ∧ (atPhase (.stopped 5)).ssc.phase = .stopped 5 :=
  ⟨hand_inHandIs _ _ rfl, hand_inHandIs _ _ rfl, rfl, rfl, rfl, rfl, by decide, by decide, rfl⟩
theorem witness_ClearAndCommitPlan_parked :
    let s := hand 0x12 [] parkedEmpty
    s.inHandIs 0x12 [] ∧ s.ssc.phase = .stopped 5000000 ∧ s.ssc.armed = false ∧ s.ssc.line = .parked
    ∧ s.ssc.plan = ⟨1, 60⟩ :: [] ∧ s.ssc.calQueue = [] ∧ ∀ k, watchDue (s.withNow 2000) k = false :=
  ⟨hand_inHandIs _ _ rfl, rfl, rfl, rfl, rfl, rfl, fun k => by cases k <;> decide⟩
/-- The front end parked between rounds, and with no work or with a plan already empty. -/
def parkedBetween : State :=
  { live with ssc := { live.ssc with phase := .between 1000 9000, roundStart := 500, line := .parked, current := none } }

theorem witness_ClearAndCommitPlan_parkedBetween :
    let s := { parkedEmpty with ssc := { parkedEmpty.ssc with plan := [] } }
    (hand 0x12 [] parkedBetween).inHandIs 0x12 [] ∧ parkedBetween.ssc.line = .parked ∧ tdiff 2000 9000 ≤ 0
    ∧ parkedBetween.ssc.armed = false ∧ (after (.commitPlan 2000) (hand 0x12 [] parkedBetween)).ssc.line = .parked
    ∧ (after (.commitPlan 9000) (hand 0x12 [] { parkedBetween with ssc := { parkedBetween.ssc with plan := [⟨1, 60⟩] } })).ssc.sent
      = [.tune 0 0, .tune 1 1]
    ∧ s.ssc.phase = .stopped 5000000 ∧ s.ssc.plan = [] ∧ (after (.commitPlan 2000) (hand 0x12 [] s)).ssc.line = .parked :=
  ⟨hand_inHandIs _ _ rfl, rfl, by decide, rfl, by decide, by decide, rfl, rfl, by decide⟩
theorem witness_SetIntervalAndWatch : live.ssc.phase = .running
    ∧ (atPhase (.stopped 5)).ssc.phase = .stopped 5 ∧ (atPhase (.between 1000 2000)).ssc.phase = .between 1000 2000
    ∧ tdiff 2000 2000 ≤ 0 ∧ (hand 0x14 [1, 0] live).inHandIs 0x14 [1, 0] ∧ (hand 0x15 [1, 0] live).inHandIs 0x15 [1, 0] :=
  ⟨rfl, rfl, rfl, by decide, hand_inHandIs _ _ rfl, hand_inHandIs _ _ rfl⟩
/-- A parked front end is woken: by a due instant now passed, and by a watch now due. -/
theorem witness_SetIntervalAndWatch_parked :
    let watched := tracking (locked 1000 20000 8000 400 4 8)
      { parkedEmpty with ssc := { parkedEmpty.ssc with lastWatch := ⟨some 1000, none, none⟩ } }
    (after (.setRoundInterval 2000) (hand 0x14 [0, 0] parkedBetween)).ssc.line = .running
    ∧ (after (.setRoundInterval 2000) (hand 0x14 [0, 50] parkedBetween)).ssc.line = .parked
    ∧ (after (.setWatch 101000) (hand 0x15 [0, 100] watched)).ssc.line = .running
    ∧ (after (.setWatch 101000) (hand 0x15 [0, 200] watched)).ssc.line = .parked := by decide

/-- A boundary within a round. -/
def atBoundary : State := { live with ssc := { live.ssc with current := none } }

theorem witness_ArbiterServesBoundary_round :
    let s := { atPhase (.between 1000 2000) with now := 2000 }
    (∀ r, s.ssc.line ≠ .fault r) ∧ s.ssc.phase = .between 1000 2000 ∧ 0 ≤ tdiff s.now 2000 ∧ s.ssc.active ≠ [] :=
  ⟨fun _ h => (nomatch h), rfl, by decide, by decide⟩
theorem witness_ArbiterServesBoundary_watch :
    let s := tracking (locked 1000000 20000 8000 400 4 8) atBoundary
    watchDue s .t0 = true ∧ (∀ j, trackerCode j < trackerCode .t0 → watchDue s j = false)
    ∧ (s.tracker .t0).oven = some (locked 1000000 20000 8000 400 4 8) ∧ s.ssc.watchRun < 3
    ∧ (6 : Chan).val = ((locked 1000000 20000 8000 400 4 8).lo.val + (locked 1000000 20000 8000 400 4 8).hi.val) / 2 :=
  ⟨by decide, fun j h => by cases j <;> simp [trackerCode] at h, rfl, by decide, by decide⟩
theorem witness_ArbiterServesBoundary_rest :
    (∀ ended due, atBoundary.ssc.phase = .between ended due → tdiff atBoundary.now due < 0 ∨ atBoundary.ssc.active = [])
    ∧ (∀ k, watchDue atBoundary k = false) ∧ { atBoundary.ssc with calQueue := [3, 4] }.calQueue = 3 :: [4]
    ∧ atBoundary.ssc.calQueue = [] ∧ atBoundary.ssc.phase = .running ∧ atBoundary.ssc.position < atBoundary.ssc.active.length
    ∧ atBoundary.ssc.active[atBoundary.ssc.position]? = some ⟨0, 40⟩
    ∧ ¬ { atBoundary.ssc with position := 11 }.position < atBoundary.ssc.active.length :=
  ⟨fun _ _ h => (nomatch h), fun k => by cases k <;> decide, rfl, rfl, rfl, by decide, by decide, by decide⟩

/-- The dwell of the reset state with another one ended, and with the line in FAULT. -/
def withEnded : State := { live with ssc := { live.ssc with ended := some ⟨sweep17, 2000000, some 2042000, none⟩ } }
def inFaultLine : State := { live with ssc := { live.ssc with line := .fault 100000 } }
def sweep0 : Dwell := ⟨.sweep, 0, 0, 40, none, false⟩

theorem witness_ReadyOpensDwell :
    live.phase = .running ∧ live.ssc.resync = false ∧ live.ssc.current = some ⟨sweep0, .ordered 0⟩
    ∧ live.ssc.ended = none ∧ (∀ r, live.ssc.line ≠ .fault r) ∧ inFaultLine.ssc.line = .fault 100000
    ∧ inFaultLine.ssc.ended = none ∧ withEnded.ssc.ended = some ⟨sweep17, 2000000, some 2042000, none⟩
    ∧ sweep17.kind ≠ .reference ∧ (1 : Byte) ≠ sweep0.id
    ∧ (opened sweep0 300 live).ssc.current = some ⟨sweep0, .opened 300 none⟩ ∧ atBoundary.ssc.current = none :=
  ⟨rfl, rfl, rfl, rfl, fun _ h => (nomatch h), rfl, rfl, rfl, by decide, by decide, rfl, rfl⟩
theorem witness_CloseClosesOrIsHeld :
    withEnded.phase = .running ∧ withEnded.ssc.resync = false
    ∧ withEnded.ssc.ended = some ⟨sweep17, 2000000, some 2042000, none⟩ ∧ sweep17.id = 17
    ∧ live.ssc.ended = none ∧ (opened sweep0 300 live).ssc.current = some ⟨sweep0, .opened 300 none⟩ ∧ sweep0.id = 0
    ∧ (1 : Byte) ≠ sweep0.id ∧ live.ssc.current = some ⟨sweep0, .ordered 0⟩ ∧ atBoundary.ssc.current = none
    ∧ { live.ssc with current := some ⟨sweep0, .opened 300 (some ⟨9, 0⟩)⟩ }.current
        = some ⟨sweep0, .opened 300 (some ⟨9, 0⟩)⟩ := by decide
theorem witness_CloseHandsDwellOver : sweep17.kind ≠ .reference
    ∧ dwell6Ended.bcl.tallies.find? (fun x => x.id = sweep17.id)
      = some ⟨17, .sweep, 6, 2000000, 40, ⟨2100, 7900, 13000⟩, ⟨1, 1, 2, 1, 1⟩, true⟩
    ∧ (dwell6Ended.setRecent .ghz24 []).recent .ghz24 = [] := by decide
theorem witness_CloseHandsDwellOver_observed :
    let run := fun stop => ((after (.close 2040300 17 47 0)
      (dwell6Ended.setRecent .ghz24 [⟨.r0, 2000000, stop, false⟩])).bcl.lastHandOver).map (·.observed)
    run 2039000 = some 1000 ∧ run 2039001 = some 999 := by decide
theorem witness_DwellEndsAtItsLength :
    let s := opened sweep0 300 live
    s.phase = .running ∧ s.ssc.current = some ⟨sweep0, .opened 300 none⟩
    ∧ tdiff 40299 (300 + BitVec.ofNat 32 (sweep0.lengthMs * 1000)) < 0
    ∧ 0 ≤ tdiff 40300 (300 + BitVec.ofNat 32 (sweep0.lengthMs * 1000))
    ∧ sweep0.kind = .sweep ∧ s.ssc.phase = .running ∧ s.ssc.position + 1 < s.ssc.active.length
    ∧ s.ssc.active.length ≤ { s.ssc with position := 10 }.position + 1 ∧ s.ssc.armed = false := by decide
theorem witness_DwellEndsAtItsLength_held :
    let s := opened sweep0 300 { live with ssc := { live.ssc with position := 10, armed := true, plan := [⟨1, 60⟩] } }
    { s.ssc with current := some ⟨sweep0, .opened 300 (some ⟨9, 0⟩)⟩ }.current
      = some ⟨sweep0, .opened 300 (some ⟨9, 0⟩)⟩
    ∧ s.ssc.phase = .running ∧ s.ssc.active.length ≤ s.ssc.position + 1 ∧ s.ssc.armed = true := by decide
theorem witness_DwellEndsAtItsLength_watch :
    let s := opened ⟨.watch, 5, 6, 45, some .t0, false⟩ 300 live
    s.ssc.current = some ⟨⟨.watch, 5, 6, 45, some .t0, false⟩, .opened 300 none⟩
    ∧ { s.ssc with current := some ⟨⟨.watch, 5, 6, 45, some .t0, false⟩, .opened 300 (some ⟨9, 0⟩)⟩ }.current
      = some ⟨⟨.watch, 5, 6, 45, some .t0, false⟩, .opened 300 (some ⟨9, 0⟩)⟩
    ∧ 0 ≤ tdiff 45300 (300 + 45000) := by decide
theorem witness_TuneTimesOut :
    let w : Dwell := ⟨.watch, 5, 6, 45, some .t0, false⟩
    let f : Dwell := ⟨.reference, 5, 6, 2, none, true⟩
    live.phase = .running ∧ live.ssc.current = some ⟨sweep0, .ordered 0⟩ ∧ tdiff 1999 (0 + 2000) < 0
    ∧ 0 ≤ tdiff 2000 (0 + 2000) ∧ live.ssc.timeouts ≤ 1 ∧ (ordered w 0 live).ssc.current = some ⟨w, .ordered 0⟩
    ∧ (ordered f 0 live).ssc.current = some ⟨f, .ordered 0⟩ ∧ live.ssc.position + 1 < live.ssc.active.length
    ∧ { live.ssc with timeouts := 2 }.timeouts = 2 ∧ inFaultLine.ssc.line = .fault 100000 := by decide
theorem witness_TuneTimesOut_last :
    let s := { live with ssc := { live.ssc with position := 10, timeouts := 2 } }
    s.ssc.current = some ⟨sweep0, .ordered 0⟩ ∧ s.ssc.phase = .running ∧ s.ssc.active.length ≤ s.ssc.position + 1
    ∧ 2 ≤ s.ssc.timeouts ∧ live.bcl.cal.status ≠ .running := by decide
theorem witness_TuneTimesOut_locked :
    ((tracking (locked 1000000 20000 8000 400 4 8) live).tracker .t0).oven = some (locked 1000000 20000 8000 400 4 8)
    ∧ (locked 1000000 20000 8000 400 4 8).phase = .locked ∧ (quickRun 1 0 false).bcl.cal.status = .running
    ∧ ∀ r, live.ssc.line ≠ .fault r := ⟨rfl, rfl, rfl, fun _ h => (nomatch h)⟩
theorem witness_CloseWaitAndFaultRetry :
    withEnded.phase = .running ∧ withEnded.ssc.ended = some ⟨sweep17, 2000000, some 2042000, none⟩
    ∧ 0 ≤ tdiff 2042000 2042000 ∧ tdiff 2041999 2042000 < 0 ∧ live.ssc.ended = none
    ∧ inFaultLine.ssc.line = .fault 100000 ∧ tdiff 99999 100000 < 0 ∧ 0 ≤ tdiff 100000 100000
    ∧ (∀ k, watchDue (inFaultLine.withNow 100000) k = false) ∧ inFaultLine.ssc.calQueue = []
    ∧ inFaultLine.ssc.phase = .running ∧ inFaultLine.ssc.active.length ≤ { inFaultLine.ssc with position := 11 }.position
    ∧ inFaultLine.ssc.active[inFaultLine.ssc.position]? = some ⟨0, 40⟩ ∧ ∀ r, live.ssc.line ≠ .fault r :=
  ⟨rfl, rfl, by decide, by decide, rfl, rfl, by decide, by decide, fun k => by cases k <;> decide, rfl, rfl, by decide,
    by decide, fun _ h => (nomatch h)⟩
/-- The retry's other clauses: a due round, between rounds, an empty plan, a due watch with and without entries left. -/
theorem witness_CloseWaitAndFaultRetry_arbiter :
    let b := { inFaultLine with ssc := { inFaultLine.ssc with phase := .between 1000 100000, position := 11 } }
    let w := tracking (locked 1000000 20000 8000 400 4 8) inFaultLine
    b.ssc.phase = .between 1000 100000 ∧ 0 ≤ tdiff 100000 100000 ∧ b.ssc.active ≠ [] ∧ tdiff 99999 100000 < 0
    ∧ b.ssc.phase ≠ .running ∧ { b.ssc with active := [] }.active = [] ∧ parkedEmpty.ssc.phase = .stopped 5000000
    ∧ watchDue (w.withNow 100000) .t0 = true ∧ w.ssc.watchRun < 3 ∧ ¬ { w.ssc with watchRun := 3 }.watchRun < 3
    ∧ (w.tracker .t0).oven = some (locked 1000000 20000 8000 400 4 8) ∧ b.ssc.line = .fault 100000 := by decide
theorem witness_RoundWatchAndEmptyPlanTimers :
    let s := atPhase (.between 1000 2000)
    let p := tracking (locked 1000000 20000 8000 400 4 8) { s with ssc := { s.ssc with line := .parked, current := none } }
    s.phase = .running ∧ s.ssc.phase = .between 1000 2000 ∧ 0 ≤ tdiff 2000 2000 ∧ tdiff 1999 2000 < 0 ∧ s.ssc.active ≠ []
    ∧ s.ssc.line ≠ .parked ∧ p.ssc.line = .parked ∧ watchDue (p.withNow 1500) .t0 = true
    ∧ (atPhase (.stopped 5000)).ssc.phase = .stopped 5000 ∧ 0 ≤ tdiff 5000 5000 ∧ tdiff 4999 5000 < 0
    ∧ live.ssc.phase = .running := by decide
theorem witness_SenseDiscardsAndResync : State.reset.phase = .running ∧ State.reset.ssc.resync = true := ⟨rfl, rfl⟩

theorem in_hand (code : Byte) (p : List Byte) : (hand code p live).inHandIs code p := hand_inHandIs _ _ rfl

theorem witness_ReadsAnswerAndChangeNothing :
    (0x01, Instr.readIdentity, 5) ∈ ([(0x01, .readIdentity, 5)] : List (Byte × (AT → Instr) × Nat))
    ∧ (hand 0x01 [] live).inHandIs 0x01 [] ∧ (hand 0x33 [2] live).inHandIs 0x33 [2] ∧ (2 : Byte).toNat < 3
    ∧ 3 ≤ (3 : Byte).toNat ∧ (hand 0x50 [63, 6] live).inHandIs 0x50 [63, 6] ∧ (63 : Byte).toNat ≤ 63
    ∧ ¬ ((64 : Byte).toNat ≤ 63 ∧ 1 ≤ (1 : Byte).toNat ∧ (1 : Byte).toNat ≤ 6)
    ∧ (hand 0x13 [1, 31, 8] live).inHandIs 0x13 [1, 31, 8] ∧ (31 : Byte).toNat ≤ 31 ∧ (8 : Byte).toNat ≤ 8
    ∧ ¬ ((0 : Byte).toNat ≤ 1 ∧ (0 : Byte).toNat ≤ 31 ∧ 1 ≤ (9 : Byte).toNat ∧ (9 : Byte).toNat ≤ 8)
    ∧ (hand 0x74 [1] live).inHandIs 0x74 [1] ∧ (1 : Byte).toNat ≤ 1 ∧ 2 ≤ (2 : Byte).toNat
    ∧ (hand 0x16 [] live).inHandIs 0x16 [] ∧ ∀ ended due, live.ssc.phase = .between ended due → tdiff 5 due ≤ 0 :=
  ⟨List.mem_cons_self, in_hand _ _, in_hand _ _, by decide, by decide, in_hand _ _, by decide, by decide, in_hand _ _,
    by decide, by decide, by decide, in_hand _ _, by decide, by decide, in_hand _ _, fun _ _ h => (nomatch h)⟩
theorem witness_ReadsReportTheState :
    (∀ code ∈ ([0x01, 0x02, 0x16, 0x22, 0x23, 0x41, 0x65] : List Byte), (hand code [] live).inHandIs code [])
    ∧ (∀ code ∈ ([0x33, 0x40, 0x73, 0x74, 0x79] : List Byte), (hand code [1] live).inHandIs code [1])
    ∧ (hand 0x13 [1, 31, 8] live).inHandIs 0x13 [1, 31, 8] ∧ (hand 0x50 [63, 6] live).inHandIs 0x50 [63, 6]
    ∧ (1 : Byte) = (if Band.ghz5 = Band.ghz24 then 0 else 1) ∧ 2 ≤ (2 : Byte).toNat
    ∧ (1 : Byte).toNat = trackerCode .t1 ∧ (1 : Byte).toNat = (1 : Chan).val ∧ (1 : Byte).toNat = radioCode .r1
    ∧ ∀ ended due, live.ssc.phase = .between ended due → tdiff 5 due ≤ 0 :=
  ⟨fun _ _ => in_hand _ _, fun _ _ => in_hand _ _, in_hand _ _, in_hand _ _, by decide, by decide, rfl, rfl, rfl,
    fun _ _ h => (nomatch h)⟩

theorem dwell6_bursts : dwell6.senses ∧ dwell6.burstFor 17 sweep17 2000000 :=
  ⟨⟨rfl, rfl⟩, rfl, .inl ⟨none, rfl⟩⟩

theorem witness_BurstOwnWeakOrDiscarded :
    dwell6.ssc.line ≠ .parked ∧ sweep17.kind ≠ .reference ∧ sweep17.lengthMs * 1000 ≤ (40000 : BitVec 24).toNat
    ∧ (39999 : BitVec 24).toNat < sweep17.lengthMs * 1000
    ∧ dwell6.burstOwn .ghz24 (2000000 + 12999) 100 ∧ ¬ dwell6.burstOwn .ghz24 (2000000 + 13000) 100
    ∧ ¬ dwell6.burstStrong 6 57 ∧ (57 : Byte).toNat < 240
    ∧ ¬ (dwell6.setChan 6 { dwell6.chan 6 with floor := 240 }).burstStrong 6 240 ∧ 240 ≤ (240 : Byte).toNat := by
  unfold State.burstOwn State.burstStrong
  decide
theorem witness_BurstOwnWeakOrDiscarded_none : ∀ d ready, ¬ dwell6.burstFor 18 d ready := by
  rintro d ready ⟨h, ⟨held, hc⟩ | ⟨-, wait, n, he⟩⟩
  · cases hc; exact absurd h (by decide)
  · cases he

/-- A dwell on index 13. -/
def sweep13 : Dwell := ⟨.sweep, 9, 13, 40, none, false⟩

theorem witness_FiveGhzBurstClassedByLength :
    let s := opened sweep13 2000000 live
    s.senses ∧ s.burstFor 9 sweep13 2000000 ∧ sweep13.kind ≠ .reference ∧ (39999 : BitVec 24).toNat < sweep13.lengthMs * 1000
    ∧ 13 ≤ sweep13.chan.val ∧ (¬ s.burstOwn .ghz5 (2000000 + 39999) 5484) ∧ s.burstStrong 13 52
    ∧ (5484 : BitVec 16).toNat ≤ 5484 ∧ ¬ (5485 : BitVec 16).toNat ≤ 5484 := by
  refine ⟨⟨rfl, rfl⟩, ⟨rfl, .inl ⟨none, rfl⟩⟩, ?_⟩
  unfold State.burstOwn State.burstStrong
  decide
theorem witness_TwoFourBurstsClassed :
    let s := dwell6
    let o := locked 1998000 20000 8000 254 4 10
    s.ssc.line ≠ .parked ∧ sweep17.chan.val ≤ 12 ∧ (239 : Byte).toNat < 240 ∧ s.burstStrong 6 58
    ∧ ¬ s.burstOwn .ghz24 (2000000 + 26000) 12001 ∧ 12000 < (12001 : BitVec 16).toNat ∧ (999 : BitVec 16).toNat < 1000
    ∧ (5484 : BitVec 16).toNat ≤ 5484 ∧ 5485 ≤ (5485 : BitVec 16).toNat ∧ (12000 : BitVec 16).toNat ≤ 12000
    ∧ (s.tracker .t0).oven = some o ∧ s.otk.settings.tolerance < (phaseError o (2000000 + 26000)).natAbs := by
  unfold State.burstOwn State.burstStrong
  decide
/-- A parked front end with its last dwell awaiting close: a burst of it seeds a tracker, whose watch is then work. -/
def parkedEnded : State :=
  { opened sweep17 2000000 live with
    ssc := { live.ssc with
      active := [], phase := .stopped 5000000, line := .parked, current := none
      ended := some ⟨sweep17, 2000000, some 2042000, none⟩ } }

theorem witness_TwoFourBurstsClassed_parked :
    let s := parkedEnded
    let u := after (.burst 2040500 17 10000 8000 150 false false) { s with ssc := { s.ssc with line := .running } }
    s.senses ∧ s.burstFor 17 sweep17 2000000 ∧ s.ssc.line = .parked
    ∧ exec (.burst 2040500 17 10000 8000 150 false false) { s with ssc := { s.ssc with line := .running } } = .next u
    ∧ watchDue { u with ssc := { u.ssc with line := .parked } } .t0 = true
    ∧ (after (.burst 2040500 17 10000 8000 150 false false) s).ssc.sent = [.tune 0 0, .tune 1 6] := by
  refine ⟨⟨rfl, rfl⟩, ⟨rfl, .inr ⟨fun _ _ _ h => (nomatch h), _, _, rfl⟩⟩, rfl, rfl, ?_⟩
  decide
theorem witness_TwoFourBurstsClassed_noMatch :
    (∀ k o, (dwell6.tracker k).oven = some o → dwell6.otk.settings.tolerance < (phaseError o 2026000).natAbs)
    ∧ (dwell6.tracker .t1).oven = none ∧ (∀ j, trackerCode j < trackerCode .t1 → (dwell6.tracker j).oven ≠ none)
    ∧ ∀ k, ({ dwell6 with otk := { dwell6.otk with trackers := ⟨dwell6.tracker .t0, dwell6.tracker .t0,
        dwell6.tracker .t0⟩ } }.tracker k).oven ≠ none := by
  refine ⟨fun k o h => ?_, rfl, fun j h => ?_, fun k => by cases k <;> decide⟩
  · cases k
    · cases h; decide
    · cases h
    · cases h
  · cases j
    · decide
    · simp [trackerCode] at h
    · simp [trackerCode] at h
theorem witness_HitUpdatesTracker :
    let o := locked 1998000 20000 8000 254 4 10
    dwell6.ssc.line ≠ .parked ∧ (18600 : BitVec 24).toNat < sweep17.lengthMs * 1000 ∧ sweep17.chan.val ≤ 12
    ∧ (150 : Byte).toNat < 240 ∧ dwell6.burstStrong 6 150 ∧ 1000 ≤ (1000 : BitVec 16).toNat
    ∧ (12000 : BitVec 16).toNat ≤ 12000 ∧ (dwell6.tracker .t0).oven = some o
    ∧ ¬ dwell6.burstOwn .ghz24 (2000000 + 18600) 1000
    ∧ (phaseError o (2000000 + 18600)).natAbs ≤ dwell6.otk.settings.tolerance := by
  unfold State.burstOwn State.burstStrong
  decide
theorem witness_HitUpdatesTracker_least : ∀ j p, j ≠ .t0 → (dwell6.tracker j).oven = some p → False := by
  intro j p hj h
  cases j
  · exact hj rfl
  · cases h
  · cases h
/-- The hit update's phases: a search short of the lock and at it, LOCKED, HOLDOVER. -/
theorem witness_HitUpdatesTracker_phases : (searching 20000 1998000 8000 0 200 2 6 6).hits + 1 < live.otk.settings.lockThreshold
    ∧ live.otk.settings.lockThreshold ≤ min 15 ((searching 20000 1998000 8000 0 200 3 6 6).hits + 1)
    ∧ (searching 20000 1998000 8000 0 200 2 6 6).phase = .search 5029000
    ∧ { locked 1998000 20000 8000 254 4 10 with phase := .holdover 5 }.phase = .holdover 5 := by decide
theorem witness_PhaseErrorIsNearest : 0 < (locked 1000000 20000 8000 400 0 0).period := by decide

theorem witness_CalibrationCommands :
    (hand 0x20 [0x3F, 0xFF, 0xFF, 0xFF, 0xFF, 1] live).inHandIs 0x20 [0x3F, 0xFF, 0xFF, 0xFF, 0xFF, 1]
    ∧ (quickRun 1 0 false).bcl.cal.status = .running ∧ live.bcl.cal.status ≠ .running ∧ 2 < (3 : Byte).toNat
    ∧ 2 ^ 38 ≤ (0x4000000000 : BitVec 40).toNat ∧ (0x3FFFFFFFFF : BitVec 40).toNat < 2 ^ 38
    ∧ (0x3FFFFFFFFF : BitVec 40) ≠ 0 ∧ live.ssc.line = .running
    ∧ (hand 0x21 [37, 0xF0] live).inHandIs 0x21 [37, 0xF0] ∧ 38 ≤ (38 : Byte).toNat
    ∧ (37 : Chan).val = (37 : Byte).toNat :=
  ⟨in_hand _ _, rfl, by decide, by decide, by decide, by decide, by decide, rfl, in_hand _ _, by decide, by decide⟩
/-- The front end parked, and in FAULT: the REFERENCE at once, and the run that ends at once. -/
theorem witness_CalibrationCommands_lines :
    let p : List Byte := [0, 0, 0, 0x20, 1, 0]
    (hand 0x20 p parkedBetween).inHandIs 0x20 p ∧ parkedBetween.ssc.line = .parked ∧ inFaultLine.ssc.line = .fault 100000
    ∧ (0x2001 : BitVec 40) ≠ 0 ∧ (0x2001 : BitVec 40).toNat < 2 ^ 38
    ∧ (after (.calibrate 2000) (hand 0x20 p parkedBetween)).ssc.sent = [.tune 0 0, .reference 1 0]
    ∧ (after (.calibrate 2000) (hand 0x20 p parkedBetween)).ssc.calQueue = [13]
    ∧ (after (.calibrate 2000) (hand 0x20 p inFaultLine)).bcl.cal = ⟨.bad, some .measure, 0x2001, 0, false⟩ :=
  ⟨hand_inHandIs _ _ rfl, rfl, rfl, by decide, by decide, by decide, by decide, by decide⟩
theorem witness_ReferenceCloseGivesOutcome :
    let s := quickRun 2 13 true
    let d : Dwell := ⟨.reference, 2, 13, 2, none, true⟩
    s.phase = .running ∧ s.ssc.resync = false ∧ s.ssc.ended = some ⟨d, 40500, none, none⟩ ∧ d.id = 2
    ∧ d.kind = .reference ∧ s.bcl.cal.status = .running ∧ s.bcl.cal.mode = some .quick
    ∧ s.bcl.cal.mask.getLsbD 20 = true ∧ bandOf 20 = bandOf d.chan ∧ (105 ≤ (105 : Byte).toNat ∧ (136 : Byte).toNat ≤ 136)
    ∧ ¬ (105 ≤ (104 : Byte).toNat) ∧ ¬ (137 : Byte).toNat ≤ 136 := by decide
/-- The outcomes without a report: a READY of the next dwell, the close wait; and no run RUNNING. -/
theorem witness_ReferenceCloseGivesOutcome_silent :
    let d : Dwell := ⟨.reference, 2, 13, 2, none, true⟩
    let s := quickRun 2 13 true
    let w := { s.ssc with ended := some ⟨d, 40500, some 44600, none⟩ }
    w.ended = some ⟨d, 40500, some 44600, none⟩ ∧ 0 ≤ tdiff 44600 44600 ∧ s.ssc.current = some ⟨sweep0, .ordered 0⟩
    ∧ s.ssc.resync = false ∧ (∀ r, s.ssc.line ≠ .fault r) ∧ live.bcl.cal.status ≠ .running
    ∧ ((after (.closeWaitExpiry 44600) { s with ssc := w }).chan 13).bad = true
    ∧ (after (.ready 44500 0) s).bcl.cal.status = .bad :=
  ⟨rfl, by decide, rfl, rfl, fun _ h => (nomatch h), by decide, by decide, by decide⟩

theorem witness_TrackerCommandsAndTimers :
    (hand 0x30 [2, 0x58, 4, 6, 7, 0xD0, 5, 0xDC, 1] live).inHandIs 0x30 [2, 0x58, 4, 6, 7, 0xD0, 5, 0xDC, 1]
    ∧ (∀ k o b, (live.tracker k).oven = some o → o.phase = .holdover b → tdiff 5 (b + 2000000) ≤ 0)
    ∧ (hand 0x31 [2, 1, 3, 0xE8] live).inHandIs 0x31 [2, 1, 3, 0xE8] ∧ 3 ≤ (3 : Byte).toNat ∧ 2 ≤ (2 : Byte).toNat
    ∧ trackerCode .t2 = (2 : Byte).toNat ∧ (hand 0x32 [2] live).inHandIs 0x32 [2] :=
  ⟨in_hand _ _, fun k _ _ h => (by cases k <;> cases h), in_hand _ _, by decide, by decide, by decide, in_hand _ _⟩
/-- A holdover that ends at SET TRACKING, by a holdover time of 1 s. -/
theorem witness_TrackerCommandsAndTimers_gone :
    let o := { locked 1000000 20000 8000 400 4 8 with phase := .holdover 1000000 }
    let p : List Byte := [2, 0x58, 4, 6, 3, 0xE8, 5, 0xDC, 1]
    let t := after (.setTracking 2000001) (hand 0x30 p (tracking o live))
    (1 : Byte) = (if Policy.ignore = Policy.avoid then 0 else 1) ∧ 0 < tdiff 2000001 (1000000 + BitVec.ofNat 32 (1000 * 1000))
    ∧ (t.tracker .t0).oven = none
    ∧ t.events.set.map (fun e => (e.kind, e.detail)) = [(.start, 1), (.ovenGone, 0)] := by decide
theorem witness_TrackerCommandsAndTimers_search :
    let o := searching 20016 5040150 8019 25 250 3 8 9
    let s := tracking o live
    s.phase = .running ∧ (s.tracker .t0).oven = some o ∧ o.phase = .search 5029000
    ∧ tdiff 5428999 (5029000 + 400000) < 0 ∧ 0 ≤ tdiff 5429000 (5029000 + 400000) ∧ s.host.mains = 0
    ∧ o.secondTried = false ∧ { o with secondTried := true }.secondTried = true := by decide
theorem witness_TrackerCommandsAndTimers_holdover :
    let o := { locked 1000000 20000 8000 400 4 8 with phase := .holdover 1000000 }
    let s := tracking o live
    let due : AT := 1000000 + BitVec.ofNat 32 (s.otk.settings.holdoverMs * 1000)
    (s.tracker .t0).oven = some o ∧ o.phase = .holdover 1000000 ∧ tdiff 2999999 due < 0 ∧ 0 ≤ tdiff 3000000 due := by
  decide

theorem witness_MapCommandsAndTimers :
    (hand 0x42 [16] live).inHandIs 0x42 [16] ∧ (16 : Byte).toNat ∈ [2, 4, 8, 16] ∧ (3 : Byte).toNat ∉ [2, 4, 8, 16]
    ∧ (hand 0x43 [41] live).inHandIs 0x43 [41] ∧ (hand 0x44 [0, 201, 241] live).inHandIs 0x44 [0, 201, 241]
    ∧ (hand 0x45 [0, 59] live).inHandIs 0x45 [0, 59] ∧ (hand 0x46 [37] live).inHandIs 0x46 [37]
    ∧ (37 : Chan).val = (37 : Byte).toNat ∧ 38 ≤ (38 : Byte).toNat ∧ (hand 0x47 [37] live).inHandIs 0x47 [37] :=
  ⟨in_hand _ _, by decide, by decide, in_hand _ _, in_hand _ _, in_hand _ _, in_hand _ _, by decide, by decide, in_hand _ _⟩
theorem witness_MapCommandsAndTimers_timers :
    let s := atSecond 7100 (live.setChan 13 { live.chan 13 with barredUntil := some 7100 })
    let t := atSecond 7099 s
    s.phase = .running ∧ tdiff 999999 (s.omap.lastRise + 1000000) < 0 ∧ 0 ≤ tdiff 1000000 (s.omap.lastRise + 1000000)
    ∧ (s.chan 13).barredUntil = some 7100 ∧ 7100 ≤ s.omap.barClock ∧ t.omap.barClock < 7100
    ∧ (s.chan 14).barredUntil = none := by decide

/-- A full neighbour table. -/
def fullTable : List Neighbour := (List.range 64).map fun i => heardOn (BitVec.ofNat 32 (100 + i)) 0 10 0 false

theorem witness_OverheardReportTaken :
    tableCase.listens .r0 ∧ 38 ≤ (38 : Byte).toNat ∧ (3 : Chan).val = (3 : Byte).toNat
    ∧ tableCase.ntab.entries = [heardOn 6015 10 95 0 false]
        ++ { heardOn 7730 3 80 0 true with accumulator := 1200 } :: []
    ∧ (∀ x ∈ [heardOn 6015 10 95 0 false] ++ [], ¬ (x.network = 7730 ∧ x.chan = 3))
    ∧ (∀ x ∈ tableCase.ntab.entries, ¬ (x.network = 4410 ∧ x.chan = 13)) ∧ tableCase.ntab.entries.length < 64
    ∧ fullTable = fullTable.dropLast ++ [heardOn 163 0 10 0 false] ∧ 64 ≤ fullTable.length
    ∧ ∀ x ∈ fullTable, ¬ (x.network = 4410 ∧ x.chan = 13) := by
  unfold State.listens
  decide
theorem witness_NeighbourCommandsAndAgeing :
    (hand 0x52 [0, 9] live).inHandIs 0x52 [0, 9] ∧ (hand 0x51 [0, 0, 0x1E, 0x32, 1] live).inHandIs 0x51 [0, 0, 0x1E, 0x32, 1]
    ∧ 2 ≤ (2 : Byte).toNat ∧ (1 : Byte) = (if true then 1 else 0) ∧ (0 : Byte) = (if false then 1 else 0) :=
  ⟨in_hand _ _, in_hand _ _, by decide, rfl, rfl⟩

theorem witness_PlanningStepSustainsAndActs :
    let s := autoCase 1064 (some 10) 2 615 450 425
    (s.link .r0).chan = some 6 ∧ (s.record .r0).inFlight = none ∧ gateServes (s.gate .r0) = true
    ∧ (s.chan 6).barredUntil = none ∧ bestOf s .r0 = some 10 ∧ (s.record .r0).holding = false ∧ (10 : Chan) ≠ 6
    ∧ (s.chan 10).load + s.cpl.hysteresis ≤ (s.chan 6).load ∧ (s.chan 6).permitted = true
    ∧ s.cpl.sustainLimit ≤ min 15 ((s.record .r0).sustain + 1) ∧ (s.record .r0).lastSwitch = some ⟨0, 1003⟩
    ∧ 1003 + s.cpl.minStay ≤ s.omap.barClock ∧ s.cpl.mode = .auto ∧ (s.record .r0).candidate = some 10 := by decide
/-- The other clauses: UNKNOWN, HOLDING, no gain (145), a sustain short of the limit, a stay not over, ADVISE. -/
theorem witness_PlanningStepSustainsAndActs_rest :
    let n := autoCase 1064 (some 10) 2 585 450 440
    let short := autoCase 1062 (some 8) 2 615 450 425
    let h := n.setRecord .r0 { n.record .r0 with holding := true }
    (live.link .r0).chan = none ∧ (h.record .r0).holding = true ∧ bestOf n .r0 = some 10
    ∧ ¬ ((n.chan 10).load + n.cpl.hysteresis ≤ (n.chan 6).load) ∧ n.cpl.sustainLimit ≠ 0
    ∧ (short.record .r0).candidate ≠ some 10 ∧ 1 < short.cpl.sustainLimit ∧ ¬ (1003 + short.cpl.minStay ≤ short.omap.barClock)
    ∧ live.cpl.mode = .advise := by decide
/-- A radio on a radar-barred channel, with a best channel and with none; and one without a best on a free channel. -/
theorem witness_PlanningStepSustainsAndActs_radar :
    let s := on .r1 21 (live.setChan 21 { live.chan 21 with barredUntil := some 1800 })
    let stuck := allChans.foldl (fun (s : State) c => s.setChan c { s.chan c with heldOut := true }) s
    let free := stuck.setChan 21 { stuck.chan 21 with barredUntil := none }
    (s.link .r1).chan = some 21 ∧ (s.record .r1).inFlight = none ∧ gateServes (s.gate .r1) = true
    ∧ (s.chan 21).barredUntil ≠ none ∧ bestOf s .r1 = some 13 ∧ (stuck.chan 21).barredUntil ≠ none
    ∧ bestOf stuck .r1 = none ∧ (free.chan 21).barredUntil = none ∧ bestOf free .r1 = none
    ∧ free.cpl.sustainLimit ≠ 0 ∧ (free.record .r1).holding = false
    ∧ (planRadio .r1 s).link .r1 = { s.link .r1 with sent := [.switch 13 1] } := by decide
theorem witness_PlannerSettings :
    (hand 0x60 [2, 3, 0xE8, 15, 0x0E, 0x10, 2] live).inHandIs 0x60 [2, 3, 0xE8, 15, 0x0E, 0x10, 2]
    ∧ 3 ≤ (3 : Byte).toNat ∧ PlanMode.fixed.code = (2 : Byte).toNat ∧ SilenceAction.defaults.code = (2 : Byte).toNat
    ∧ (hand 0x61 [1, 0xFF, 1, 16] live).inHandIs 0x61 [1, 0xFF, 1, 16] ∧ 2 ≤ (2 : Byte).toNat
    ∧ (38 ≤ (38 : Byte).toNat ∧ (38 : Byte) ≠ 0xFF) ∧ radioCode .r1 = (1 : Byte).toNat
    ∧ (0xFF : Byte).toNat = (((none : Option Chan)).map (·.val)).getD 0xFF
    ∧ (37 : Byte).toNat = ((some (37 : Chan)).map (·.val)).getD 0xFF ∧ (hand 0x64 [1] live).inHandIs 0x64 [1] :=
  ⟨in_hand _ _, by decide, by decide, by decide, in_hand _ _, by decide, by decide, by decide, by decide, by decide,
    in_hand _ _⟩
theorem witness_HostSwitchOrders :
    let s := on .r0 6 live
    let w : Switch := ⟨14, 1, 1501102400, .radar, 21⟩
    let f := s.setRecord .r0 { s.record .r0 with inFlight := some w, proposal := some ⟨8, 1, 2, 3⟩ }
    (live.link .r0).chan = none ∧ (s.link .r0).chan = some 6 ∧ gateServes (s.gate .r0) = true
    ∧ (s.record .r0).inFlight = none ∧ eligible s .r0 20 = false ∧ eligible s .r0 6 = true ∧ eligible s .r0 8 = true
    ∧ (8 : Chan) ≠ 6 ∧ 2 ≤ (2 : Byte).toNat ∧ 38 ≤ (38 : Byte).toNat ∧ radioCode .r0 = (0 : Byte).toNat
    ∧ (s.record .r0).proposal = none ∧ (f.record .r0).proposal = some ⟨8, 1, 2, 3⟩ ∧ (f.record .r0).inFlight = some w
    ∧ 0 ≤ tdiff 1501102400 w.deadline ∧ tdiff 1501102399 w.deadline < 0 ∧ s.phase = .running := by decide
theorem witness_HostSwitchOrders_inHand : (hand 0x62 [0, 8, 0] live).inHandIs 0x62 [0, 8, 0]
    ∧ (hand 0x63 [0] live).inHandIs 0x63 [0] := ⟨in_hand _ _, in_hand _ _⟩

theorem witness_StatusAndSwitchedPlaceRadio :
    let s := on .r0 6 live
    let w : Switch := ⟨10, 5, 1065912000, .planner, 6⟩
    let f := s.setRecord .r0 { s.record .r0 with inFlight := some w }
    s.listens .r0 ∧ 38 ≤ (38 : Byte).toNat ∧ (10 : Chan).val = (10 : Byte).toNat
    ∧ (1 : Byte).toNat ≠ (if (10 : Chan).val ≤ 12 then 0 else 1) ∧ (0 : Byte).toNat = (if (12 : Chan).val ≤ 12 then 0 else 1)
    ∧ (1 : Byte).toNat = (if (13 : Chan).val ≤ 12 then 0 else 1)
    ∧ (live.link .r0).chan = none ∧ (live.gate .r0).mode = .host .gateOpen ∧ (s.link .r0).chan = some 6 ∧ (6 : Chan) ≠ 10
    ∧ (s.chan 10).barredUntil = none ∧ (f.record .r0).inFlight = some w ∧ (s.record .r0).inFlight = none := by
  unfold State.listens
  decide
/-- A change of channel onto a radar-barred channel. -/
theorem witness_StatusAndSwitchedPlaceRadio_barred :
    let s := on .r0 6 (live.setChan 10 { live.chan 10 with barredUntil := some 1800 })
    let t := after (.status 9 .r0 0 10) s
    s.listens .r0 ∧ (s.chan 10).barredUntil ≠ none ∧ gateServes (s.gate .r0) = true
    ∧ (t.link .r0).sent = [.switch 0 1] ∧ (t.record .r0).inFlight = some ⟨0, 1, 1102409, .radar, 10⟩ := by
  unfold State.listens
  decide
theorem witness_RadarBarsAndMoves :
    let s := on .r1 21 live
    let v := raise .radarBar 21 ((s.tookRecord 7 .r1).setChan 21 { s.chan 21 with barredUntil := some 1800 })
    let stuck := allChans.foldl (fun (s : State) c => s.setChan c { s.chan c with heldOut := true }) s
    s.listens .r1 ∧ 38 ≤ (38 : Byte).toNat ∧ (21 : Chan).val = (21 : Byte).toNat ∧ (s.link .r1).chan = some 21
    ∧ (s.link .r0).chan ≠ some 21 ∧ (s.link .r0).chan ≠ some 13 ∧ (s.record .r1).inFlight = none
    ∧ gateServes (s.gate .r1) = true ∧ bestOf v .r1 = some 13 ∧ bestOf stuck .r1 = none := by
  unfold State.listens
  decide

/-- Both radios on the channel: radio 1 keeps clear of radio 0's target. -/
theorem witness_RadarBarsAndMoves_both :
    let s := on .r1 21 (on .r0 21 live)
    let t := after (.radar 7 .r1 21) s
    (s.link .r0).chan = some 21 ∧ (s.link .r1).chan = some 21
    ∧ ((t.record .r0).inFlight.map (·.target), (t.record .r1).inFlight.map (·.target)) = (some 13, some 14) := by decide

theorem witness_AirRequestAnswered :
    let s := oneTracker
    s.listens .r0 ∧ (live.link .r0).chan = none ∧ (s.link .r0).chan = some 6 ∧ (s.gate .r0).mode = .host .gateOpen
    ∧ (granted.gate .r0).slot ≠ none ∧ (s.gate .r0).slot = none ∧ exclusionApplies s .r0 = false
    ∧ (s.gate .r1).slot = none := by
  unfold State.listens
  decide
theorem witness_AirRequestAnswered_modes (m : HostMode) :
    ((oneTracker.setGate .r0 { oneTracker.gate .r0 with mode := .host m }).gate .r0).mode = .host m := rfl
theorem witness_AirRequestAnswered_clear : ∀ k o, ((on .r0 9 oneTracker).tracker k).oven = some o →
    protecting (on .r0 9 oneTracker).otk.settings.policy .normal o = true → covers o 9 = false := by
  intro k o h _
  cases k
  · cases h; decide
  · cases h
  · cases h
theorem witness_GrantsAvoidWindows :
    let t := after (.airRequest 1002980 .r0 7 6000 2000 20000 0) twoTrackers
    exec (.airRequest 1002980 .r0 7 6000 2000 20000 0) twoTrackers = .next t ∧ twoTrackers.listens .r0
    ∧ (twoTrackers.link .r0).chan = some 6 ∧ (twoTrackers.gate .r0).slot = none
    ∧ (t.gate .r0).slot = some ⟨7, .normal, 1015067, 4533, true, 1020100, true⟩ := by
  refine ⟨rfl, ?_⟩
  unfold State.listens
  decide
/-- What fits before radio 0 on index 6 with two trackers, for a request that arrives at 1,002,980. -/
theorem twoTrackers_fits (w n : Nat) :
    twoTrackers.fits .r0 6 .normal 1003000 w n ↔ ∀ i : Int,
      ((w : Int) + n ≤ -3400 + i * 20000 ∨ 5600 + i * 20000 ≤ (w : Int))
      ∧ ((w : Int) + n ≤ 3267 + i * 20000 ∨ 12067 + i * 20000 ≤ (w : Int)) := by
  have shapes : ∀ o, twoTrackers.shapes .normal 6 o ↔
      o = locked 1000000 20000 8200 400 4 8 ∨ o = locked 1006667 20000 8000 400 4 8 := by
    intro o
    constructor
    · rintro ⟨-, -, -, k, h⟩
      cases k
      · cases h; exact .inl rfl
      · cases h; exact .inr rfl
      · cases h
    · rintro (rfl | rfl)
      · exact ⟨by decide, by decide, by decide, .t0, rfl⟩
      · exact ⟨by decide, by decide, by decide, .t1, rfl⟩
  constructor
  · intro h i
    have a := h _ _ (.inl ⟨_, (shapes _).2 (.inl rfl), i, rfl, rfl⟩)
    have b := h _ _ (.inl ⟨_, (shapes _).2 (.inr rfl), i, rfl, rfl⟩)
    have e : tdiff (1000000 : AT) 1003000 = -3000 ∧ tdiff (1006667 : AT) 1003000 = 3667 := by decide
    simp only [locked, classGuard, effectiveGuard, e.1, e.2] at a b
    omega
  · rintro h lo hi (⟨o, ho, i, rfl, rfl⟩ | ⟨he, -⟩)
    · have e : tdiff (1000000 : AT) 1003000 = -3000 ∧ tdiff (1006667 : AT) 1003000 = 3667 := by decide
      have := h i
      rcases (shapes o).1 ho with rfl | rfl <;> simp only [locked, classGuard, effectiveGuard, e.1, e.2] <;> omega
    · exact absurd he (by decide)
/-- GRANT at the first 4533 µs gap, at 12,067; SHORT of that gap for 6000 µs with a minimum of 2000. -/
theorem witness_GrantsAvoidWindows_scans :
    let fits := twoTrackers.fits .r0 6 .normal 1003000
    (fits 12067 4533 ∧ ¬ fits 12067 4534 ∧ ∀ v < 12067, ¬ fits v 2000) ∧ ∀ w, w ≤ 20000 → ¬ fits w 6000 := by
  refine ⟨⟨?_, ?_, ?_⟩, ?_⟩ <;> simp only [twoTrackers_fits]
  · intro i; omega
  · intro h; have := h 1; omega
  · intro v hv h; have := h 0; omega
  · intro w hw h; have := h 0; have := h 1; omega
/-- TOO_LONG and WAIT: the gaps between the windows of one tracker are 11,000 and 7200 µs. -/
theorem witness_GrantsAvoidWindows_bound :
    let gap := fun (s : State) (o : Oven) => o.period - o.width - 2 * classGuard s.otk.settings .normal o
    let long := tracking (locked 1000000 20000 12000 400 4 8) oneTracker
    oneTracker.shapes .normal 6 (locked 1000000 20000 8200 400 4 8)
    ∧ 8000 ≤ gap oneTracker (locked 1000000 20000 8200 400 4 8)
    ∧ long.shapes .normal 6 (locked 1000000 20000 12000 400 4 8)
    ∧ gap long (locked 1000000 20000 12000 400 4 8) < 8000 ∧ (oneTracker.gate .r0).mode = .host .gateOpen :=
  ⟨⟨by decide, by decide, by decide, .t0, rfl⟩, by decide, ⟨by decide, by decide, by decide, .t0, rfl⟩, by decide, rfl⟩
theorem witness_GrantsAvoidWindows_invariants : TrackerInv twoTrackers ∧ GateInv twoTrackers := by
  refine ⟨⟨by unfold TrackSettings.ok; decide, fun t => ?_⟩, fun b => by cases b <;> decide, fun r g h => ?_⟩
  · cases t
    · exact ⟨by decide, by decide, fun o h => by cases h; unfold Oven.ok; decide⟩
    · exact ⟨by decide, by decide, fun o h => by cases h; unfold Oven.ok; decide⟩
    · exact ⟨by decide, by decide, fun o h => by cases h⟩
  · cases r <;> cases h
theorem witness_GrantsCloseAndAgeOut :
    let g : Grant := ⟨7, .normal, 1008600, 3000, false, 1012100, true⟩
    granted.listens .r0 ∧ (granted.gate .r0).slot = some g ∧ g.tag = 7 ∧ g.tag ≠ 8 ∧ 0 ≤ tdiff 1012100 g.expiry
    ∧ tdiff 1012099 g.expiry < 0 ∧ (oneTracker.gate .r0).slot = none
    ∧ (∃ e ∈ granted.recent .ghz24, e.live = true ∧ e.radio = .r0 ∧ 200000 < tdiff 1211601 e.stop)
    ∧ ∀ e ∈ granted.recent .ghz24, e.live = true → e.radio = .r0 → tdiff 1211600 e.stop ≤ 200000 := by
  unfold State.listens
  decide
theorem witness_GateCommands :
    (hand 0x70 [1, 3] live).inHandIs 0x70 [1, 3] ∧ 2 ≤ (2 : Byte).toNat ∧ 4 ≤ (4 : Byte).toNat
    ∧ radioCode .r1 = (1 : Byte).toNat ∧ HostMode.gateOff.code = (3 : Byte).toNat ∧ (silent.gate .r1).mode = .safe .gateHeld
    ∧ (live.gate .r1).mode = .host .gateOpen ∧ HostMode.gateOpen ≠ .gateHeld ∧ (hand 0x71 [1] live).inHandIs 0x71 [1]
    ∧ (1 : Byte) = (if true then 1 else 0) ∧ (hand 0x72 [1, 0, 200] live).inHandIs 0x72 [1, 0, 200] :=
  ⟨in_hand _ _, by decide, by decide, by decide, by decide, rfl, rfl, by decide, in_hand _ _, rfl, in_hand _ _⟩
theorem witness_LinkFramingAndSilence :
    let s := on .r1 21 live
    let timed := s.setLink .r1 { s.link .r1 with timer := some 2001000, lastValid := some 1501000 }
    (State.reset.link .r1).resync = true ∧ (live.link .r1).resync = false ∧ 6 < (7 : Byte).toNat
    ∧ (6, 1) ∈ [(1, 2), (2, 8), (3, 3), (4, 10), (5, 1), (6, 1)] ∧ (6 : Byte).toNat = 6 ∧ (2 : Byte).toNat ≠ 1
    ∧ (timed.link .r1).timer = some 2001000 ∧ 0 ≤ tdiff 2001000 2001000 ∧ tdiff 2000999 2001000 < 0
    ∧ (live.link .r1).timer = none ∧ 2 ≤ (2 : Byte).toNat ∧ radioCode .r1 = (1 : Byte).toNat
    ∧ (timed.link .r1).lastValid = some 1501000 ∧ tdiff 1601000 (1501000 + BitVec.ofNat 32 (100 * 1000)) ≤ 0
    ∧ 0 < tdiff 1601001 (1501000 + BitVec.ofNat 32 (100 * 1000)) := by decide
theorem witness_LinkFramingAndSilence_return :
    live.phase = .running ∧ (silent.link .r1).resync = false ∧ (silent.link .r1).silent = true ∧ (silent.link .r1).chan = some 21
    ∧ (21 : Byte).toNat = (21 : Chan).val ∧ (1 : Byte).toNat = (if (21 : Chan).val ≤ 12 then 0 else 1)
    ∧ (silent.gate .r1).mode = .safe .gateHeld := by decide
/-- The return by a record of another kind, and by the first STATUS of an UNKNOWN radio: no second GATE NOTICE. -/
theorem witness_LinkFramingAndSilence_records :
    let unknown := silent.setLink .r1 { silent.link .r1 with chan := none }
    (unknown.link .r1).silent = true ∧ (unknown.link .r1).chan = none ∧ (unknown.gate .r1).mode = .safe .gateHeld
    ∧ ((after (.status 9 .r1 1 21) unknown).link .r1).sent = [.gateNotice .gateHeld]
    ∧ ((after (.airRequest 9 .r1 5 100 0 0 0) silent).link .r1).sent = [.gateNotice .gateHeld, .wait 5 1000]
    ∧ after (.radar 9 .r1 21) State.reset = State.reset.withNow 9 := by decide
theorem witness_LinkFramingAndSilence_inHand : (hand 0x78 [1, 0, 100] live).inHandIs 0x78 [1, 0, 100] := in_hand _ _

end Sys2Proof.Tests
end

section
/-! The answers of a host command that is carried out, and WRITE PLAN ENTRY (chapter 1). -/

namespace Sys2Proof.Machine

/-! ## What a host command in hand is answered -/

section HostCommand

variable {s : State} {t : AT} {code : Byte} {k n : Nat} {p : List Byte}
  {body : List Byte → State → (Code × List Byte) × State}

/-- R188: a refusal changes nothing but the answer. -/
theorem handle_of_refuse {rc : Code} (h : s.inHandIs code p) (hk : code.toNat = k) (hn : n ≤ p.length)
    (hb : body p (s.withNow t) = refuse rc (s.withNow t)) :
    handle k n t s body = .next (s.answered t code rc []) := by
  rw [handle_hand h hk hn, hb]
  rfl

/-- R188: an accepted command whose effect lies in the schedule changes the schedule beside the answer. -/
theorem handle_of_okay_withSsc {out : List Byte} {x : Ssc} (h : s.inHandIs code p) (hk : code.toNat = k)
    (hn : n ≤ p.length) (hb : body p (s.withNow t) = okay out ((s.withNow t).withSsc x)) :
    handle k n t s body = .next { s.answered t code .ok out with ssc := x } := by
  rw [handle_hand h hk hn, hb]
  rfl

end HostCommand

/-! ## A channel operand -/

theorem chanOf_of_val_eq {c : Chan} {b : Byte} (h : c.val = b.toNat) : chanOf b = some c := by
  have hlt : b.toNat < 38 := h ▸ c.isLt
  simp only [chanOf, dif_pos hlt, Option.some.injEq]
  exact Fin.ext h.symm

theorem chanOf_eq_none {b : Byte} (h : 37 < b.toNat) : chanOf b = none :=
  dif_neg (by omega)

/-! ## The operands and the plan of WRITE PLAN ENTRY -/

@[simp] theorem arg_cons_zero (a : Byte) (p : List Byte) : arg (a :: p) 0 = a := rfl

@[simp] theorem arg_cons_succ (a : Byte) (p : List Byte) (i : Nat) : arg (a :: p) (i + 1) = arg p i := rfl

@[simp] theorem State.withNow_chan (s : State) (t : AT) (c : Chan) : (s.withNow t).chan c = s.chan c := rfl

theorem writeEntry_of_lt {i : Nat} {plan : List PlanEntry} (h : i < plan.length) (e : PlanEntry) :
    writeEntry i e plan = plan.set i e :=
  if_pos h

theorem writeEntry_length (e : PlanEntry) (plan : List PlanEntry) :
    writeEntry plan.length e plan = plan ++ [e] :=
  if_neg (lt_irrefl _)

section WritePlanEntry

variable {s : State} {pos ch dw : Byte} {rest : List Byte} {c : Chan}

theorem exec_writePlanEntry (now : AT) (s : State) :
    exec (.writePlanEntry now) s = execWritePlanEntry now s := rfl

theorem writePlanEntry_of_armed (now : AT) (h : s.inHandIs 0x10 (pos :: ch :: dw :: rest))
    (harmed : s.ssc.armed = true) :
    exec (.writePlanEntry now) s = .next (s.answered now 0x10 .busy []) := by
  rw [exec_writePlanEntry, execWritePlanEntry]
  exact handle_of_refuse h rfl (by simp) (by simp [harmed])

theorem writePlanEntry_of_channel_out_of_range (now : AT) (h : s.inHandIs 0x10 (pos :: ch :: dw :: rest))
    (harmed : s.ssc.armed = false) (hch : 37 < ch.toNat) :
    exec (.writePlanEntry now) s = .next (s.answered now 0x10 .badArgument []) := by
  rw [exec_writePlanEntry, execWritePlanEntry]
  exact handle_of_refuse h rfl (by simp) (by simp [harmed, chanOf_eq_none hch])

theorem writePlanEntry_of_not_permitted (now : AT) (h : s.inHandIs 0x10 (pos :: ch :: dw :: rest))
    (harmed : s.ssc.armed = false) (hc : c.val = ch.toNat) (hperm : (s.chan c).permitted = false) :
    exec (.writePlanEntry now) s = .next (s.answered now 0x10 .notPermitted []) := by
  rw [exec_writePlanEntry, execWritePlanEntry]
  exact handle_of_refuse h rfl (by simp) (by simp [harmed, chanOf_of_val_eq hc, hperm])

theorem writePlanEntry_of_position_out_of_range (now : AT) (h : s.inHandIs 0x10 (pos :: ch :: dw :: rest))
    (harmed : s.ssc.armed = false) (hc : c.val = ch.toNat) (hperm : (s.chan c).permitted = true)
    (hpos : 31 < pos.toNat ∨ s.ssc.plan.length < pos.toNat) :
    exec (.writePlanEntry now) s = .next (s.answered now 0x10 .badArgument []) := by
  rw [exec_writePlanEntry, execWritePlanEntry]
  exact handle_of_refuse h rfl (by simp) (by simp [harmed, chanOf_of_val_eq hc, hperm, arg1, hpos])

/-- R2: an entry that passes the checks is written with its dwell clamped to 1 to 100 ms, which is answered. -/
theorem writePlanEntry_of_checks_passed (now : AT) (h : s.inHandIs 0x10 (pos :: ch :: dw :: rest))
    (harmed : s.ssc.armed = false) (hc : c.val = ch.toNat) (hperm : (s.chan c).permitted = true)
    (hpos : pos.toNat ≤ 31) (hlen : pos.toNat ≤ s.ssc.plan.length) :
    exec (.writePlanEntry now) s = .next
      { s.answered now 0x10 .ok [BitVec.ofNat 8 (clampNat 1 100 dw.toNat)] with
        ssc := { s.ssc with plan := writeEntry pos.toNat ⟨c, clampNat 1 100 dw.toNat⟩ s.ssc.plan } } := by
  have hin : ¬ (31 < pos.toNat ∨ s.ssc.plan.length < pos.toNat) := by omega
  rw [exec_writePlanEntry, execWritePlanEntry]
  exact handle_of_okay_withSsc h rfl (by simp) (by simp [harmed, chanOf_of_val_eq hc, hperm, arg1, hin, b1])

end WritePlanEntry

/-- Settles O24: the refusals in the order of R2's table, then the entry replaced below the plan's length and appended
at it. -/
theorem writePlanEntryChecksAndWrites : Obligations.WritePlanEntryChecksAndWrites := by
  unfold Obligations.WritePlanEntryChecksAndWrites
  intro now pos ch dw rest s h
  refine ⟨writePlanEntry_of_armed now h, writePlanEntry_of_channel_out_of_range now h, fun c hc harmed =>
    ⟨writePlanEntry_of_not_permitted now h harmed hc,
      writePlanEntry_of_position_out_of_range now h harmed hc, ?replaced, ?appended⟩⟩
  case replaced =>
    intro hperm hpos hlt
    rw [writePlanEntry_of_checks_passed now h harmed hc hperm hpos hlt.le, writeEntry_of_lt hlt]
    rfl
  case appended =>
    intro hperm hpos heq
    rw [writePlanEntry_of_checks_passed now h harmed hc hperm hpos heq.le, heq, writeEntry_length]
    rfl

end Sys2Proof.Machine
end

section
/-! Burst intake (chapter 2): which dwell a BURST is for, what a burst that is neither OWN nor WEAK does, and the classes of
a 5 GHz burst. -/

namespace Sys2Proof.Machine

/-! ## A tally changed -/

section Tally

variable {s u : State} {id : Byte} {f g : Tally → Tally}

theorem onTally_eq (id : Byte) (f : Tally → Tally) (s : State) : onTally id f s = s.onTally id f := rfl

theorem State.onTally_bcl_congr (h : s.bcl = u.bcl) : (s.onTally id f).bcl = (u.onTally id f).bcl := by
  simp only [State.onTally, h]

/-- Two changes of one tally in a row are one change, when the first leaves the tally its id. -/
theorem State.onTally_onTally (hf : ∀ x, (f x).id = x.id) :
    (s.onTally id f).onTally id g = s.onTally id fun x => g (f x) := by
  have hmap (x : Tally) : (if (if x.id = id then f x else x).id = id then g (if x.id = id then f x else x)
      else if x.id = id then f x else x) = if x.id = id then g (f x) else x := by
    by_cases hx : x.id = id <;> simp [hx, hf]
  simp only [State.onTally, List.map_map, Function.comp_def, hmap]

theorem State.onTally_of_id (hf : ∀ x, f x = x) : s.onTally id f = s := by
  simp only [State.onTally, hf, ite_self, List.map_id']

end Tally

/-! ## The tests of a burst -/

section Tests

variable {s : State}

theorem bandOf_of_13_le {c : Chan} (h : 13 ≤ c.val) : bandOf c = .ghz5 :=
  if_neg (by omega)

theorem overlaps_iff (a b : Int × Int) :
    overlaps a b = true ↔ a.1 < a.2 ∧ b.1 < b.2 ∧ a.1 < b.2 ∧ b.1 < a.2 := by
  simp only [overlaps, Bool.and_eq_true, decide_eq_true_eq, and_assoc]

/-- R27: the overlap test against the recent-grant list. -/
theorem isOwn_iff (s : State) (b : Band) (start : AT) (n : Nat) : isOwn s b start n = true ↔ s.burstOwn b start n := by
  simp only [isOwn, State.burstOwn, List.any_eq_true, overlaps_iff, spanFrom, Int.natCast_pos, and_left_comm]

/-- R28: the corrected level reaches the threshold. -/
theorem threshold_le_corrected_iff (s : State) (c : Chan) (raw : Byte) :
    threshold s.omap.margin (s.chan c) ≤ corrected raw (s.chan c).correction ↔ s.burstStrong c raw := by
  simp only [threshold, corrected, clampInt, State.burstStrong]
  omega

/-- R37: the saturation rule of a burst that is not OWN. -/
theorem markOver_if_saturated (s : State) (d : Dwell) (raw : Byte) :
    (if saturatedRaw raw then markOver d s else s) = s.sawBurst d raw := by
  by_cases h : raw.toNat < 240
  · simp [saturatedRaw, State.sawBurst, h]
  · simp only [saturatedRaw, Nat.not_lt.mp h, State.sawBurst, h, decide_true, if_true, if_false]
    rfl

theorem State.sawBurst_touches (s : State) (d : Dwell) (raw : Byte) :
    touchesOnly [.bcl, .omap, .events] s (s.sawBurst d raw) := by
  rw [← markOver_if_saturated]
  exact .ite (fun _ => markOver_touches _ _) (fun _ => .refl _ _)

/-- R37: of the classifier, a burst that is not OWN changes the saturated-seen mark of its dwell's tally alone. -/
theorem State.sawBurst_bcl (s : State) (d : Dwell) (raw : Byte) :
    (s.sawBurst d raw).bcl
      = (s.onTally d.id fun x => { x with saturated := x.saturated || decide (240 ≤ raw.toNat) }).bcl := by
  by_cases h : raw.toNat < 240
  · have hmark : decide (240 ≤ raw.toNat) = false := decide_eq_false (by omega)
    simp only [State.sawBurst, h, if_true, hmark, Bool.or_false]
    rw [State.onTally_of_id fun _ => rfl]
  · have hmark : decide (240 ≤ raw.toNat) = true := decide_eq_true (by omega)
    simp only [State.sawBurst, h, if_false, hmark, Bool.or_true]
    split <;> rfl

end Tests

/-! ## The classes of a 5 GHz burst -/

/-- R29: the class of a 5 GHz burst that is neither OWN nor WEAK. -/
def ghz5Class (n : Nat) : BurstClass := if n ≤ Config.frameMaxUs then .frame else .other

theorem bandTests_of_ghz5 {f : Offer} (h : bandOf f.chan = .ghz5) (us : Nat) (s : State) :
    bandTests f us s = s.onTally f.id (tallied (ghz5Class f.duration) us) := by
  simp only [bandTests, h]
  rfl

/-- R29, R32: a 5 GHz burst's count and clipped duration go to FRAME up to 5484 µs and to OTHER beyond. -/
theorem tallied_ghz5Class (n us : Nat) (t : Tally) :
    tallied (ghz5Class n) us t =
      if n ≤ 5484 then
        { t with
          counts := { t.counts with frame := min 255 (t.counts.frame + 1) }
          busy := { t.busy with frame := t.busy.frame + us } }
      else
        { t with
          counts := { t.counts with other := min 255 (t.counts.other + 1) }
          busy := { t.busy with other := t.busy.other + us } } := by
  by_cases h : n ≤ 5484
  · rw [if_pos h, ghz5Class, if_pos (show n ≤ Config.frameMaxUs from h)]
    rfl
  · rw [if_neg h, ghz5Class, if_neg (show ¬ n ≤ Config.frameMaxUs from h)]
    rfl

/-! ## A BURST taken -/

section Burst

variable {s : State} {d : Dwell} {ready now : AT} {id : Byte}

/-- R14: the dwell a BURST is passed on for. -/
theorem burstDwell_eq_some_iff : burstDwell s.ssc id = some (d, ready) ↔ s.burstFor id d ready := by
  have hended (x : Option Ended) : (∃ wait completion, x = some ⟨d, ready, wait, completion⟩)
      ↔ ∃ e, x = some e ∧ e.dwell = d ∧ e.ready = ready :=
    ⟨by rintro ⟨_, _, rfl⟩; exact ⟨_, rfl, rfl, rfl⟩, by rintro ⟨e, rfl, rfl, rfl⟩; exact ⟨_, _, rfl⟩⟩
  unfold burstDwell State.burstFor
  rw [hended]
  rcases s.ssc.current with _ | ⟨d', _ | ⟨ready', held⟩⟩
  case none => cases s.ssc.ended <;> grind
  case some.ordered => cases s.ssc.ended <;> grind
  case some.opened =>
    have hopen : (∃ held', some (⟨d', .opened ready' held⟩ : Current) = some ⟨d, .opened ready held'⟩)
        ↔ d' = d ∧ ready' = ready := by simp
    rw [hopen]
    by_cases hd' : d'.id = id
    case pos => grind
    case neg => cases s.ssc.ended <;> grind

theorem wakeIfParked_of_line_ne (h : s.ssc.line ≠ .parked) : wakeIfParked s = s :=
  if_neg fun hw => h hw.1

/-- R14, R19: a BURST for a SWEEP or WATCH dwell is taken by the classifier, after which a parked front end may wake. -/
theorem exec_burst_of_burstFor (hs : s.senses) (hd : s.burstFor id d ready) (hk : d.kind ≠ .reference)
    (off : BitVec 24) (dur : BitVec 16) (raw : Byte) (x y : Bool) :
    exec (.burst now id off dur raw x y) s
      = .next (wakeIfParked (takeBurst d ready off.toNat dur.toNat raw x y (s.withNow now))) := by
  obtain ⟨hrun, hsync⟩ := hs
  change senseEvent now s (burstRecord id off.toNat dur.toNat raw x y) = _
  simp only [senseEvent, event_running hrun, State.withNow_ssc, hsync, burstRecord,
    burstDwell_eq_some_iff.mpr hd, hk, Bool.false_eq_true, if_false]

/-- R27, R28, R37: a burst within its dwell that is neither OWN nor WEAK meets the tests of its band, after the saturation
rule. -/
theorem takeBurst_of_strong {off n : Nat} {raw : Byte} (x y : Bool) (hoff : off < d.lengthMs * 1000)
    (hown : ¬ s.burstOwn (bandOf d.chan) (addUs ready off) n) (hstrong : s.burstStrong d.chan raw) :
    takeBurst d ready off n raw x y s
      = bandTests ⟨d.id, d.chan, addUs ready off, n, x, y⟩ (clippedUs (d.lengthMs * 1000) off n) (s.sawBurst d raw) := by
  rw [← threshold_le_corrected_iff] at hstrong
  rw [← isOwn_iff] at hown
  simp only [takeBurst, markOver_if_saturated, Nat.not_le.mpr hoff, hown, Nat.not_lt.mpr hstrong, Bool.false_eq_true,
    if_false]

end Burst

/-- Settles O39: what a strong 5 GHz burst does is the saturation rule, then its class's count and duration in the tally;
waking a parked front end touches the schedule alone. -/
theorem fiveGhzBurstClassedByLength : Obligations.FiveGhzBurstClassedByLength := by
  unfold Obligations.FiveGhzBurstClassedByLength
  intro now id off dur raw x y s d ready hs hd hk hoff hchan hown hstrong us seen
  have hid : d.id = id := hd.1
  have hband : bandOf d.chan = .ghz5 := bandOf_of_13_le hchan
  let u := seen.onTally id (tallied (ghz5Class dur.toNat) us)
  have htake : takeBurst d ready off.toNat dur.toNat raw x y (s.withNow now) = u := by
    rw [takeBurst_of_strong (s := s.withNow now) x y hoff (hband ▸ hown) hstrong, bandTests_of_ghz5 hband, hid]
    rfl
  have hseen : touchesOnly [.now, .bcl, .omap, .events] s seen :=
    (withNow_touches s now).step (State.sawBurst_touches _ d raw)
  have hu : touchesOnly [.now, .bcl, .omap, .events] s u := hseen.trans (onTally_touches _ _ _).mono
  have hwake : touchesOnly [.ssc] u (wakeIfParked u) := wakeIfParked_touches u
  have hall : touchesOnly [.now, .ssc, .bcl, .omap, .events] s (wakeIfParked u) := hu.step hwake
  have hssc : s.ssc = u.ssc := hu .ssc (by decide)
  refine ⟨wakeIfParked u, ?exec, (hall .otk (by decide)).symm, (hwake .omap (by decide)).symm,
    (hwake .events (by decide)).symm, fun hline => ?line, hall, ?bcl⟩
  case exec => rw [exec_burst_of_burstFor hs hd hk, htake]
  case line => rw [wakeIfParked_of_line_ne (hssc ▸ hline), hssc]
  case bcl =>
    calc (wakeIfParked u).bcl
      _ = u.bcl := (hwake .bcl (by decide)).symm
      _ = ((s.onTally id fun t => { t with saturated := t.saturated || decide (240 ≤ raw.toNat) }).onTally id
            (tallied (ghz5Class dur.toNat) us)).bcl :=
          State.onTally_bcl_congr (hid ▸ State.sawBurst_bcl (s.withNow now) d raw)
      _ = _ := by
          rw [State.onTally_onTally (by exact fun _ => rfl)]
          simp only [tallied_ghz5Class]

end Sys2Proof.Machine
end

section
/-! Phase error and window index (R49): the division of the burst's distance from the anchor by the period, its remainder
taken nearest to zero. -/

namespace Sys2Proof.Machine

/-! ## The instants of Arith -/

theorem ofInt_tdiff (a b : AT) : BitVec.ofInt 32 (tdiff a b) = a - b :=
  BitVec.ofInt_toInt

theorem add_ofInt_tdiff (a b : AT) : b + BitVec.ofInt 32 (tdiff a b) = a := by
  rw [ofInt_tdiff, add_comm, BitVec.sub_add_cancel]

theorem addInt_addInt (a : AT) (i j : Int) : addInt (addInt a i) j = addInt a (i + j) := by
  simp only [addInt, BitVec.ofInt_add, add_assoc]

/-! ## Division with the remainder nearest to zero -/

/-- R49: `e` lies from −(P − 1) div 2 to P div 2, a run of `P` consecutive values. -/
def NearestRemainder (P : Nat) (e : Int) : Prop :=
  -(((P - 1) / 2 : Nat) : Int) ≤ e ∧ e ≤ ((P / 2 : Nat) : Int)

/-- Two remainders nearest to zero differ by less than the period, so only equal quotients give one sum. -/
theorem NearestRemainder.unique {P : Nat} {e e' k k' : Int} (hP : 0 < P) (he : NearestRemainder P e)
    (he' : NearestRemainder P e') (h : k * P + e = k' * P + e') : e' = e ∧ k' = k := by
  obtain ⟨hlo, hhi⟩ := he
  obtain ⟨hlo', hhi'⟩ := he'
  have hmul : e' - e = P * (k - k') := by linear_combination -h
  have hlt : |e' - e| < P := abs_lt.mpr ⟨by omega, by omega⟩
  have heq : e' - e = 0 := Int.eq_zero_of_abs_lt_dvd ⟨_, hmul⟩ hlt
  have hk : (P : Int) * (k - k') = 0 := hmul.symm.trans heq
  have hk' : k - k' = 0 := (mul_eq_zero.mp hk).resolve_left (by omega)
  omega

/-! ## Phase error and window -/

section PhaseError

variable {o : Oven}

theorem phaseError_nearest (hP : 0 < o.period) (s : AT) : NearestRemainder o.period (phaseError o s) := by
  have hpos : 0 ≤ tdiff s o.anchor % (o.period : Int) := Int.emod_nonneg _ (by omega)
  have hlt : tdiff s o.anchor % (o.period : Int) < o.period := Int.emod_lt_of_pos _ (by omega)
  simp only [NearestRemainder, phaseError]
  split
  case isTrue hle => omega
  case isFalse hgt => omega

/-- The phase error is the remainder of the signed distance, less one period or not. -/
theorem period_dvd_tdiff_sub_phaseError (o : Oven) (s : AT) :
    (o.period : Int) ∣ tdiff s o.anchor - phaseError o s := by
  have hrem : (o.period : Int) ∣ tdiff s o.anchor - tdiff s o.anchor % o.period := Int.dvd_self_sub_emod
  simp only [phaseError]
  split
  case isTrue => exact hrem
  case isFalse =>
    rw [← sub_add]
    exact hrem.add dvd_rfl

theorem windowIndex_mul_period (o : Oven) (s : AT) :
    windowIndex o s * o.period = tdiff s o.anchor - phaseError o s :=
  Int.ediv_mul_cancel (period_dvd_tdiff_sub_phaseError o s)

theorem tdiff_eq_windowIndex_mul_period_add (o : Oven) (s : AT) :
    tdiff s o.anchor = windowIndex o s * o.period + phaseError o s := by
  rw [windowIndex_mul_period, sub_add_cancel]

/-- R49: s − e = A + kP, in the wrapping arithmetic of instants. -/
theorem windowStart_eq (o : Oven) (s : AT) : windowStart o s = addInt o.anchor (windowIndex o s * o.period) :=
  calc addInt s (-phaseError o s)
    _ = addInt (addInt o.anchor (tdiff s o.anchor)) (-phaseError o s) := by
        rw [addInt, addInt, addInt, add_ofInt_tdiff]
    _ = addInt o.anchor (tdiff s o.anchor - phaseError o s) := addInt_addInt _ _ _
    _ = addInt o.anchor (windowIndex o s * o.period) := by rw [windowIndex_mul_period]

theorem matchesOven_iff (tolerance : Nat) (o : Oven) (s : AT) :
    matchesOven tolerance o s = true ↔ (phaseError o s).natAbs ≤ tolerance :=
  decide_eq_true_iff

end PhaseError

/-- Settles O42: the phase error is a remainder nearest to zero with the window index as its quotient, and such a pair is
unique. -/
theorem phaseErrorIsNearest : Obligations.PhaseErrorIsNearest := by
  unfold Obligations.PhaseErrorIsNearest
  intro o start hP e k
  have hsum : tdiff start o.anchor = k * o.period + e := tdiff_eq_windowIndex_mul_period_add o start
  have hnear : NearestRemainder o.period e := phaseError_nearest hP start
  refine ⟨hsum, hnear.1, hnear.2, fun e' k' hsum' hlo hhi => ?unique, windowStart_eq o start,
    fun tolerance => matchesOven_iff tolerance o start⟩
  case unique => exact hnear.unique hP ⟨hlo, hhi⟩ (hsum.symm.trans hsum')

end Sys2Proof.Machine
end

section
/-! Eligibility and the best eligible channel (R111, R112): the best is the argmin of the stored load over the eligible
channels, which stand in ascending order, so the first among equals is the lowest index. -/

namespace Sys2Proof.Machine

/-! ## Separation -/

theorem bandOf_of_le_12 {c : Chan} (h : c.val ≤ 12) : bandOf c = .ghz24 :=
  if_pos h

/-- Overlap and separation: a distance of 5 within 2.4 GHz, a difference within 5 GHz, nothing between the bands. -/
theorem separated_iff (c d : Chan) : separated c d = true ↔
    (c.val ≤ 12 → d.val ≤ 12 → c.val + 5 ≤ d.val ∨ d.val + 5 ≤ c.val) ∧ (13 ≤ c.val → 13 ≤ d.val → c ≠ d) := by
  rcases Nat.lt_or_ge 12 c.val with hc | hc <;> rcases Nat.lt_or_ge 12 d.val with hd | hd
  case inl.inl =>
    have hcd : separated c d = decide (c ≠ d) := by
      simp only [separated, bandOf_of_13_le hc, bandOf_of_13_le hd]
    simp [hcd, Nat.not_le.mpr hc, Nat.succ_le_of_lt hc, Nat.succ_le_of_lt hd]
  case inl.inr =>
    have hcd : separated c d = true := by simp only [separated, bandOf_of_13_le hc, bandOf_of_le_12 hd]
    exact iff_of_true hcd ⟨by omega, by omega⟩
  case inr.inl =>
    have hcd : separated c d = true := by simp only [separated, bandOf_of_le_12 hc, bandOf_of_13_le hd]
    exact iff_of_true hcd ⟨by omega, by omega⟩
  case inr.inr =>
    have hcd : separated c d = (decide (c.val + 5 ≤ d.val) || decide (d.val + 5 ≤ c.val)) := by
      simp only [separated, bandOf_of_le_12 hc, bandOf_of_le_12 hd]
    simp [hcd, hc, hd, Nat.not_le.mpr (Nat.lt_succ_of_le hc)]

/-! ## Eligibility -/

section Eligibility

variable {s : State} {r : Radio} {b c : Chan}

theorem not_barred_iff (x : ChannelRecord) : (!barred x) = true ↔ x.barredUntil = none ∧ x.heldOut = false := by
  simp [barred]

theorem clearOfOther_iff : clearOfOther s r c = true ↔
    (∀ d, (s.link (otherRadio r)).chan = some d → separated c d = true)
    ∧ ∀ w, (s.record (otherRadio r)).inFlight = some w → separated c w.target = true := by
  unfold clearOfOther
  rw [Bool.and_eq_true]
  refine and_congr ?channel ?switch
  case channel => cases (s.link (otherRadio r)).chan <;> simp
  case switch => cases (s.record (otherRadio r)).inFlight <;> simp

theorem eligible_iff : eligible s r c = true ↔ ∃ cur, (s.link r).chan = some cur ∧ bandOf c = bandOf cur
    ∧ (s.chan c).permitted = true ∧ (s.chan c).barredUntil = none ∧ (s.chan c).heldOut = false
    ∧ (∀ d, (s.link (otherRadio r)).chan = some d → separated c d = true)
    ∧ ∀ w, (s.record (otherRadio r)).inFlight = some w → separated c w.target = true := by
  unfold eligible
  cases (s.link r).chan
  case none => simp
  case some cur =>
    simp only [Bool.and_eq_true, not_barred_iff, clearOfOther_iff, decide_eq_true_eq, and_assoc, Option.some.injEq,
      exists_eq_left']

/-! ## The best eligible channel -/

/-- R112: the channels among which the best is sought, in ascending order. -/
def eligibleChans (s : State) (r : Radio) : List Chan := allChans.filter (eligible s r)

theorem mem_eligibleChans : c ∈ eligibleChans s r ↔ eligible s r c = true := by
  simp [eligibleChans, allChans]

theorem eligibleChans_sortedLT (s : State) (r : Radio) : (eligibleChans s r).SortedLT :=
  ((List.sortedLT_finRange 38).pairwise.filter _).sortedLT

theorem eligibleChans_eq_nil_iff : eligibleChans s r = [] ↔ ∀ c, eligible s r c = false := by
  simp only [List.eq_nil_iff_forall_not_mem, mem_eligibleChans, Bool.not_eq_true]

/-- R112: the fold of `lesserLoad` is the search for the first channel of the least load. -/
theorem lesserLoad_eq_argAux (s : State) :
    lesserLoad s = List.argAux fun c b => (s.chan c).load < (s.chan b).load := by
  funext best c
  cases best <;> rfl

theorem bestOf_eq_argmin (s : State) (r : Radio) :
    bestOf s r = (eligibleChans s r).argmin fun c => (s.chan c).load := by
  rw [bestOf, lesserLoad_eq_argAux]
  rfl

/-- In an ascending list the positions of two elements are ordered as they are. -/
theorem idxOf_le_idxOf_iff {l : List Chan} (hl : l.SortedLT) (hb : b ∈ l) (hc : c ∈ l) :
    l.idxOf b ≤ l.idxOf c ↔ b ≤ c :=
  (hl.getIso l).symm.le_iff_le (x := ⟨b, hb⟩) (y := ⟨c, hc⟩)

theorem bestOf_eq_some_iff : bestOf s r = some b ↔ eligible s r b = true ∧ ∀ c, eligible s r c = true →
    (s.chan b).load < (s.chan c).load ∨ ((s.chan b).load = (s.chan c).load ∧ b ≤ c) := by
  rw [bestOf_eq_argmin, List.argmin_eq_some_iff, mem_eligibleChans, ← forall₂_and]
  refine and_congr_right fun hb => forall_congr' fun c => ?_
  rw [mem_eligibleChans]
  refine forall_congr' fun hc => ?_
  rw [idxOf_le_idxOf_iff (eligibleChans_sortedLT s r) (mem_eligibleChans.mpr hb) (mem_eligibleChans.mpr hc),
    Fin.le_def]
  omega

theorem bestOf_eq_none_iff : bestOf s r = none ↔ ∀ c, eligible s r c = false := by
  rw [bestOf_eq_argmin, List.argmin_eq_none, eligibleChans_eq_nil_iff]

end Eligibility

/-- Settles O50: separation band by band, the five conditions of eligibility, and the best eligible channel as the argmin
of the stored load over the eligible channels in ascending order. -/
theorem bestEligibleIsLeastLoaded : Obligations.BestEligibleIsLeastLoaded := by
  unfold Obligations.BestEligibleIsLeastLoaded
  exact ⟨separated_iff, fun s r => ⟨fun _ => eligible_iff, fun _ => bestOf_eq_some_iff, bestOf_eq_none_iff⟩⟩

end Sys2Proof.Machine
end

section
/-! SET HOST SILENCE (R193): the two-byte limit read and answered, and the host-silence timer run from the command's
deselection under the new limit. -/

namespace Sys2Proof.Machine

/-! ## Two-byte values -/

/-- RECORD LAYOUTS (chapter 8): the first of two bytes is the high one. -/
@[simp] theorem arg2_cons_cons_zero (a b : Byte) (p : List Byte) :
    arg2 (a :: b :: p) 0 = 256 * a.toNat + b.toNat := by
  have hb : b.toNat < 2 ^ 8 := b.isLt
  simp only [arg2, arg_cons_succ, arg_cons_zero, BitVec.toNat_append]
  rw [← Nat.shiftLeft_add_eq_or_of_lt hb, Nat.shiftLeft_eq]
  omega

theorem b2_of_lt {n : Nat} (h : n < 256) : b2 n = [0, BitVec.ofNat 8 n] := by
  rw [b2, Nat.div_eq_of_lt h]
  rfl

/-! ## A host command whose effect lies in the host port -/

/-- R188: an accepted command whose effect lies in the host port changes the port beside the answer. -/
theorem handle_of_okay_withHost {s : State} {t : AT} {code : Byte} {k n : Nat} {p out : List Byte}
    {body : List Byte → State → (Code × List Byte) × State} {x : HostPort} (h : s.inHandIs code p)
    (hk : code.toNat = k) (hn : n ≤ p.length) (hb : body p (s.withNow t) = okay out ((s.withNow t).withHost x)) :
    handle k n t s body
      = .next { s.answered t code .ok out with host := { x with inHand := none, response := some ⟨.ok, code, out⟩ } } := by
  rw [handle_hand h hk hn, hb]
  rfl

theorem State.inHandIs_of_inHand {s : State} {c : InHand} (hrun : s.phase = .running) (hc : s.host.inHand = some c) :
    s.inHandIs c.code c.payload :=
  ⟨hrun, by rw [hc, Option.map_some]⟩

/-! ## SET HOST SILENCE -/

theorem exec_setHostSilence (now : AT) (s : State) : exec (.setHostSilence now) s = execSetHostSilence now s := rfl

/-- R193: the timer counts the new limit from the deselection of the command in hand, not from its handling. -/
theorem setHostSilence_of_inHand {s : State} {a b : Byte} {rest : List Byte} {d : AT} (now : AT)
    (hrun : s.phase = .running) (hc : s.host.inHand = some ⟨0x05, a :: b :: rest, d⟩) :
    let n := min 255 (256 * a.toNat + b.toNat)
    exec (.setHostSilence now) s = .next { s.answered now 0x05 .ok (b2 n) with
      host := { restartHostTimer d { s.host with limitS := n } with
        inHand := none, response := some ⟨.ok, 0x05, b2 n⟩ } } := by
  rw [exec_setHostSilence, execSetHostSilence]
  exact handle_of_okay_withHost (State.inHandIs_of_inHand hrun hc) rfl (by simp) (by simp [hc])

/-- Settles O20: the limit clamped to 255 fits the low byte of the answer, and the timer restarts under it. -/
theorem setHostSilenceStoresLimit : Obligations.SetHostSilenceStoresLimit := by
  unfold Obligations.SetHostSilenceStoresLimit
  intro now d a b rest s hrun hc n
  have hn : n < 256 := by omega
  rw [setHostSilence_of_inHand now hrun hc, b2_of_lt hn]
  rfl

end Sys2Proof.Machine
end

section
/-! Raising an event (R205): what one occurrence of a kind does to the pending event set. -/

namespace Sys2Proof.Machine

/-! ## Kind codes -/

/-- R206: the kinds are declared in kind-code order. -/
theorem EventKind.code_eq_ctorIdx_succ (k : EventKind) : k.code = k.ctorIdx + 1 := by
  cases k <;> rfl

theorem EventKind.code_injective : Function.Injective EventKind.code := by
  have hinj : Function.Injective EventKind.ctorIdx := Function.LeftInverse.injective EventKind.ofNat_ctorIdx
  intro a b h
  exact hinj (by simpa only [code_eq_ctorIdx_succ, Nat.add_right_cancel_iff] using h)

/-! ## One occurrence taken into the set -/

section RecordEvent

variable {k : EventKind} {d : Nat} {now : AT} {set : List EventEntry} {e e' : EventEntry}

/-- R205: a kind without an entry gets one, wherever the set's order places it. -/
theorem mem_recordEvent_of_absent (h : ∀ e ∈ set, e.kind ≠ k) : ⟨k, 1, d, now⟩ ∈ recordEvent k d now set := by
  fun_induction recordEvent k d now set with
  | case1 => exact List.mem_singleton_self _
  | case2 x rest hx => exact absurd hx (h x List.mem_cons_self)
  | case3 x rest _ _ => exact List.mem_cons_self
  | case4 x rest _ _ ih => exact List.mem_cons_of_mem _ (ih fun e he => h e (List.mem_cons_of_mem _ he))

/-- R205: a kind's entry is brought up to date. The set's order keeps the search from passing the kind's place before it
reaches the entry. -/
theorem mem_recordEvent_of_present (hs : set.Pairwise fun a b => a.kind.code < b.kind.code) (he : e ∈ set)
    (hk : e.kind = k) : ⟨k, satInc 255 e.count, d, now⟩ ∈ recordEvent k d now set := by
  fun_induction recordEvent k d now set with
  | case1 => cases he
  | case2 x rest hx =>
    obtain ⟨hlt, -⟩ := List.pairwise_cons.mp hs
    obtain rfl | hr := List.mem_cons.mp he
    · exact List.mem_cons_self
    · exact absurd (hlt e hr) (by rw [hk, hx]; exact lt_irrefl _)
  | case3 x rest hx hkx =>
    obtain ⟨hlt, -⟩ := List.pairwise_cons.mp hs
    obtain rfl | hr := List.mem_cons.mp he
    · exact absurd hk hx
    · exact absurd (hkx.trans (hlt e hr)) (by rw [hk]; exact lt_irrefl _)
  | case4 x rest hx _ ih =>
    obtain rfl | hr := List.mem_cons.mp he
    · exact absurd hk hx
    · exact List.mem_cons_of_mem _ (ih hs.of_cons hr)

/-- R205: the entries of the other kinds stay as they are. -/
theorem mem_recordEvent_of_kind_ne (hk : e.kind ≠ k) : e ∈ recordEvent k d now set ↔ e ∈ set := by
  have hne (n : Nat) : e ≠ ⟨k, n, d, now⟩ := by rintro rfl; exact hk rfl
  fun_induction recordEvent k d now set with
  | case1 => simp [hne]
  | case2 x rest hx =>
    have hex : e ≠ x := by rintro rfl; exact hk hx
    simp [hne, hex]
  | case3 x rest _ _ => simp [hne]
  | case4 x rest _ _ ih => simp [ih]

/-- R204: one occurrence keeps the set in kind-code order with one entry of a kind at most. -/
theorem recordEvent_pairwise (hs : set.Pairwise fun a b => a.kind.code < b.kind.code) :
    (recordEvent k d now set).Pairwise fun a b => a.kind.code < b.kind.code := by
  fun_induction recordEvent k d now set with
  | case1 => exact List.pairwise_singleton _ _
  | case2 x rest hx =>
    obtain ⟨hlt, hr⟩ := List.pairwise_cons.mp hs
    exact List.pairwise_cons.mpr ⟨fun y hy => hx ▸ hlt y hy, hr⟩
  | case3 x rest _ hkx =>
    obtain ⟨hlt, -⟩ := List.pairwise_cons.mp hs
    exact List.pairwise_cons.mpr ⟨List.forall_mem_cons.mpr ⟨hkx, fun y hy => hkx.trans (hlt y hy)⟩, hs⟩
  | case4 x rest hx hle ih =>
    obtain ⟨hlt, hr⟩ := List.pairwise_cons.mp hs
    have hxk : x.kind.code < k.code := lt_of_le_of_ne (not_lt.mp hle) (EventKind.code_injective.ne hx)
    refine List.pairwise_cons.mpr ⟨fun y hy => ?_, ih hr⟩
    obtain hy | ⟨z, hz, hzy⟩ := recordEvent_kind hy
    · rwa [hy]
    · exact hzy ▸ hlt z hz

/-- R204: in a set in kind-code order an entry is known by its kind. -/
theorem EventEntry.eq_of_kind_eq (hs : set.Pairwise fun a b => a.kind.code < b.kind.code) (he : e ∈ set) (he' : e' ∈ set)
    (hk : e.kind = e'.kind) : e = e' := by
  have hnodup : (set.map fun x => x.kind.code).Nodup := List.pairwise_map.mpr (hs.imp ne_of_lt)
  exact List.inj_on_of_nodup_map hnodup he he' (congrArg EventKind.code hk)

end RecordEvent

/-- Settles O22: the kind's entry made or brought up to date, the only one of its kind in a set that keeps its order, beside
the untouched entries of the other kinds. -/
theorem eventRaisedIsRecorded : Obligations.EventRaisedIsRecorded := by
  unfold Obligations.EventRaisedIsRecorded
  intro k d s hs
  exact ⟨mem_recordEvent_of_absent, fun e he => mem_recordEvent_of_present hs he,
    fun e e' he he' hk hk' => EventEntry.eq_of_kind_eq (recordEvent_pairwise hs) he he' (hk.trans hk'.symm),
    fun e hk => mem_recordEvent_of_kind_ne hk, raise_attn k d s, raise_touches k d s⟩

end Sys2Proof.Machine
end

section
/-! The step, and the frame of every command: which parts of the state each of the 84 commands may touch. -/

namespace Sys2Proof.Machine

set_option Elab.async false

/-! ## The step -/

/-- Settles O1: the step's own equation on a queue that is not empty. -/
theorem stepRunsFrontCommand : Obligations.StepRunsFrontCommand := by
  unfold Obligations.StepRunsFrontCommand
  intro s c rest h
  simp only [step, h]
  rfl

/-- Settles O2: the step's own equation on the empty queue. -/
theorem emptyQueueIdles : Obligations.EmptyQueueIdles := by
  unfold Obligations.EmptyQueueIdles
  intro s h
  simp only [step, h]

/-! ## Results within a frame -/

/-- A command's result is a next state that differs from `s` in the parts `ps` at most; the latched domain stays unless the
command may reset the part. -/
def CompletesIn (ps : List Part) (s : State) (r : Result) : Prop :=
  ∃ t, r = .next t ∧ touchesOnly ps s t ∧ (Part.phase ∉ ps → t.host.dom = s.host.dom)

section Frames

variable {s : State} {t : AT} {ps qs : List Part}

/-- A command that may touch the host port keeps the latched domain, or may reset the part. -/
theorem CompletesIn.hostEvent {body : State → State} (hb : ∀ u, touchesOnly ps u (body u))
    (hd : Part.phase ∉ qs → ∀ u, (body u).host.dom = u.host.dom)
    (h : (.now :: ps).all (fun p => decide (p ∈ qs)) = true := by rfl) : CompletesIn qs s (Machine.event t s body) := by
  obtain ⟨s', hs'⟩ := event_next (t := t) (s := s) body
  refine ⟨s', hs', (event_touches hb hs').mono h, fun hq => ?_⟩
  rcases event_cases hs' with ⟨_, _, rfl⟩ | ⟨_, rfl⟩
  · rfl
  · exact hd hq _

theorem CompletesIn.event {body : State → State} (hb : ∀ u, touchesOnly ps u (body u))
    (h : (.now :: ps).all (fun p => decide (p ∈ qs)) = true := by rfl)
    (hh : decide (Part.host ∉ ps) = true := by rfl) : CompletesIn qs s (Machine.event t s body) :=
  .hostEvent hb (fun _ u => congrArg HostPort.dom (hb u .host (of_decide_eq_true hh)).symm) h

theorem CompletesIn.hostHandle {k n : Nat} {body : List Byte → State → (Code × List Byte) × State}
    (hb : ∀ p u, touchesOnly ps u (body p u).2) (hd : ∀ p u, (body p u).2.host.dom = u.host.dom)
    (h : (.now :: .host :: ps).all (fun p => decide (p ∈ qs)) = true := by rfl) :
    CompletesIn qs s (Machine.handle k n t s body) := by
  obtain ⟨s', hs'⟩ := handle_next (t := t) (s := s) k n body
  refine ⟨s', hs', (handle_touches hb hs').mono h, fun _ => ?_⟩
  rcases handle_cases hs' with rfl | rfl | ⟨c, _, _, rfl | rfl⟩
  · rfl
  · rfl
  · rfl
  · exact hd _ _

theorem CompletesIn.handle {k n : Nat} {body : List Byte → State → (Code × List Byte) × State}
    (hb : ∀ p u, touchesOnly ps u (body p u).2)
    (h : (.now :: .host :: ps).all (fun p => decide (p ∈ qs)) = true := by rfl)
    (hh : decide (Part.host ∉ ps) = true := by rfl) : CompletesIn qs s (Machine.handle k n t s body) :=
  .hostHandle hb (fun p u => congrArg HostPort.dom (hb p u .host (of_decide_eq_true hh)).symm) h

theorem CompletesIn.senseEvent {body : State → State} (hb : ∀ u, touchesOnly ps u (body u))
    (h : (.now :: ps).all (fun p => decide (p ∈ qs)) = true := by rfl)
    (hh : decide (Part.host ∉ ps) = true := by rfl) : CompletesIn qs s (Machine.senseEvent t s body) :=
  .event (fun u => .ite (fun _ => .refl _ _) (fun _ => hb u)) h hh

/-- R167, R176: a record of a radio may touch what a valid record touches beside what its own body touches. -/
theorem CompletesIn.radioEvent {r : Radio} {body : State → State} (hb : ∀ u, touchesOnly ps u (body u))
    (hps : [Part.links, .agt, .cpl, .events].all (fun p => decide (p ∈ ps)) = true := by rfl)
    (h : (.now :: ps).all (fun p => decide (p ∈ qs)) = true := by rfl)
    (hh : decide (Part.host ∉ ps) = true := by rfl) : CompletesIn qs s (Machine.radioEvent t r s body) :=
  .event (fun u => .ite (fun _ => .refl _ _) (fun _ => ((takeValid_touches r u).mono hps).trans (hb _))) h hh

/-- A read command, whose body answers and changes nothing. -/
theorem CompletesIn.read {k n : Nat} {body : List Byte → State → (Code × List Byte) × State}
    (hb : ∀ p u, (body p u).2 = u) : CompletesIn [.now, .host] s (Machine.handle k n t s body) :=
  .handle (ps := []) fun p u => by rw [hb]; exact .refl _ _

end Frames

/-! ## Resets -/

theorem touchesOnly_resetParts {s t : State} (h : t.pending = s.pending) : touchesOnly resetParts s t := by
  intro p hp
  cases p
  case pending => exact h.symm
  all_goals exact absurd (by decide) hp

theorem boundary_pending (s : State) : (boundary s).pending = s.pending := (boundary_touches s .pending (by decide)).symm

theorem beginWork_pending (cause : StartCause) (dom mains : BitVec 2) (id : Byte) (corr : Chan → Int) (out : List Byte)
    (q : List Instr) : (beginWork cause dom mains id corr out q).pending = q := boundary_pending _

theorem resetPartNow_touches (s : State) : touchesOnly resetParts s (resetPartNow s) :=
  touchesOnly_resetParts (beginWork_pending _ _ _ _ _ _ _)

theorem readResponse_touches (extra : Nat) (s : State) : touchesOnly resetParts s (readResponse extra s) := by
  obtain ⟨x, _, ⟨_, _, _, h⟩ | ⟨_, h⟩⟩ := readResponse_cases extra s
  · rw [h]; exact (withHost_touches _ _).mono.trans (resetPartNow_touches _)
  · rw [h]; exact (withHost_touches _ _).mono

theorem writeTransaction_frame (now : AT) (bytes : List Byte) (s : State) :
    CompletesIn resetParts s (execWriteTransaction now bytes s) := by
  refine .hostEvent (ps := resetParts) (fun u => ?_) fun h => absurd (by decide) h
  split
  · exact .refl _ _
  · split
    · exact readResponse_touches _ _
    · exact (withHost_touches _ _).mono

theorem readTransaction_frame (now : AT) (m : ReadMoment) (s : State) :
    CompletesIn resetParts s (execReadTransaction now m s) := by
  refine .hostEvent (ps := resetParts) (fun u => ?_) fun h => absurd (by decide) h
  cases m
  case firstByte => exact (withHost_touches _ _).mono
  case deselection extra => exact readResponse_touches _ _

theorem resetPartDeadline_frame (now : AT) (s : State) :
    CompletesIn resetParts s (execResetPartDeadline now s) := by
  refine .hostEvent (ps := resetParts) (fun u => ?_) fun h => absurd (by decide) h
  split
  · exact .refl _ _
  · exact .ite (fun _ => resetPartNow_touches _) (fun _ => .refl _ _)

theorem startInstant_frame (dom mains : BitVec 2) (s : State) :
    CompletesIn resetParts s (execStartInstant dom mains s) := by
  unfold execStartInstant
  split
  · exact ⟨s, rfl, .refl _ _, fun _ => rfl⟩
  · exact ⟨_, rfl, touchesOnly_resetParts (beginWork_pending _ _ _ _ _ _ _), fun h => absurd (by decide) h⟩

/-! ## The bodies of commands with cases -/

theorem unknownCommand_frame (now : AT) (s : State) : CompletesIn [.now, .host] s (execUnknownCommand now s) := by
  refine .hostEvent (ps := [.host]) (fun u => ?_) fun _ u => ?_
  · split
    · exact .refl _ _
    · exact .ite (fun _ => .refl _ _) (fun _ => answer_touches _ _ _)
  · split
    · rfl
    · split <;> rfl

theorem hostSilenceExpiry_frame (now : AT) (s : State) :
    CompletesIn [.now, .host, .cpl, .links, .events] s (execHostSilenceExpiry now s) := by
  refine .hostEvent (ps := [.host, .cpl, .links, .events]) (fun u => ?_) fun _ u => ?_
  · split
    · exact .refl _ _
    · exact .ite (fun _ => (withHost_touches _ _).step (silenceAction_touches _)) (fun _ => .refl _ _)
  · split
    · rfl
    · split
      · rw [← silenceAction_touches _ .host (by decide)]
        rfl
      · rfl

theorem writePlanEntry_frame (now : AT) (s : State) : CompletesIn [.now, .host, .ssc] s (execWritePlanEntry now s) := by
  refine .handle (ps := [.ssc]) fun p u => ?_
  split
  · exact .refl _ _
  · split
    · exact .refl _ _
    · split
      · exact .refl _ _
      · split
        · exact .refl _ _
        · exact withSsc_touches _ _

theorem clearPlan_frame (now : AT) (s : State) : CompletesIn [.now, .host, .ssc] s (execClearPlan now s) := by
  refine .handle (ps := [.ssc]) fun p u => ?_
  split
  · exact .refl _ _
  · exact withSsc_touches _ _

theorem calibrateRevert_frame (now : AT) (s : State) :
    CompletesIn [.now, .host, .ssc, .bcl, .omap, .events] s (execCalibrateRevert now s) := by
  unfold execCalibrateRevert
  split
  · exact .handle calibrateWith_touches
  · exact .event (ps := []) fun u => .refl _ _

theorem writeCorrection_frame (now : AT) (s : State) :
    CompletesIn [.now, .host, .omap] s (execWriteCorrection now s) := by
  refine .handle (ps := [.omap]) fun p u => ?_
  split
  · exact .refl _ _
  · split
    · exact .refl _ _
    · exact setChan_touches _ _ _

theorem setTracking_frame (now : AT) (s : State) :
    CompletesIn [.now, .host, .otk, .ssc, .events] s (execSetTracking now s) := by
  refine .handle (ps := [.otk, .ssc, .events]) fun p u => ?_
  split
  · exact .refl _ _
  · exact (((withOtk_touches _ _).step (expirePassed_touches _ _)).trans (expirePassed_touches _ _)).trans
      (expirePassed_touches _ _)

theorem setHeldOut_touches (f : Bool) (p : List Byte) (s : State) : touchesOnly [.omap] s (setHeldOut f p s).2 := by
  unfold setHeldOut
  split
  · exact setChan_touches _ _ _
  · exact .refl _ _

theorem setAveraging_frame (now : AT) (s : State) : CompletesIn [.now, .host, .omap] s (execSetAveraging now s) := by
  refine .handle (ps := [.omap]) fun p u => ?_
  dsimp only
  split
  · exact withOmap_touches _ _
  · exact .refl _ _

theorem markFriendly_frame (now : AT) (s : State) : CompletesIn [.now, .host, .ntab] s (execMarkFriendly now s) := by
  refine .handle (ps := [.ntab]) fun p u => ?_
  split
  · exact .refl _ _
  · exact withNtab_touches _ _

theorem setPlanner_frame (now : AT) (s : State) : CompletesIn [.now, .host, .cpl] s (execSetPlanner now s) := by
  refine .handle (ps := [.cpl]) fun p u => ?_
  split
  · exact (setMode_touches _ _).trans (withCpl_touches _ _)
  · exact .refl _ _

theorem setRadio_frame (now : AT) (s : State) : CompletesIn [.now, .host, .cpl] s (execSetRadio now s) := by
  refine .handle (ps := [.cpl]) fun p u => ?_
  split
  · exact setRecord_touches _ _ _
  · exact .refl _ _

theorem setChannel_frame (now : AT) (s : State) : CompletesIn [.now, .host, .cpl, .links] s (execSetChannel now s) := by
  refine .handle (ps := [.cpl, .links]) fun p u => ?_
  split
  · exact hostSwitch_touches _ _ _ _
  · exact .refl _ _

theorem acceptProposal_frame (now : AT) (s : State) :
    CompletesIn [.now, .host, .cpl, .links] s (execAcceptProposal now s) := by
  refine .handle (ps := [.cpl, .links]) fun p u => ?_
  split
  · exact .refl _ _
  · split
    · exact .refl _ _
    · exact hostSwitch_touches _ _ _ _

theorem setGate_frame (now : AT) (s : State) : CompletesIn [.now, .host, .agt, .links] s (execSetGate now s) := by
  refine .handle (ps := [.agt, .links]) fun p u => ?_
  split
  · exact setGateMode_touches _ _ _
  · exact .refl _ _

theorem setSilence_frame (now : AT) (s : State) :
    CompletesIn [.now, .host, .links, .agt, .events] s (execSetSilence now s) := by
  refine .handle (ps := [.links, .agt, .events]) fun p u => ?_
  split
  · exact setSilenceLimit_touches _ _ _
  · exact .refl _ _

theorem dwellEnd_frame (now : AT) (s : State) : CompletesIn closeParts s (execDwellEnd now s) := by
  refine .event (ps := closeParts) fun u => ?_
  split
  · exact .refl _ _
  · exact .refl _ _
  · exact .ite (fun _ => (endDwell_touches _ _ _ _).mono) (fun _ => .refl _ _)

theorem tuneTimeout_frame (now : AT) (s : State) : CompletesIn closeParts s (execTuneTimeout now s) := by
  refine .event (ps := closeParts) fun u => ?_
  split
  · exact .refl _ _
  · exact .refl _ _
  · exact .ite (fun _ => (tuneTimedOut_touches _ _ _).mono) (fun _ => .refl _ _)

theorem closeWaitExpiry_frame (now : AT) (s : State) : CompletesIn closeParts s (execCloseWaitExpiry now s) := by
  refine .event (ps := closeParts) fun u => ?_
  split
  · exact .refl _ _
  · split
    · exact .refl _ _
    · exact .ite (fun _ => (closeEnded_touches _ _).mono) (fun _ => .refl _ _)

theorem faultRetry_frame (now : AT) (s : State) : CompletesIn [.now, .ssc] s (execFaultRetry now s) := by
  refine .event (ps := [.ssc]) fun u => ?_
  split
  · exact .ite (fun _ => retryInFault_touches _) (fun _ => .refl _ _)
  · exact .refl _ _
  · exact .refl _ _

theorem emptyPlanTimer_frame (now : AT) (s : State) :
    CompletesIn [.now, .ssc, .omap, .ntab, .cpl, .links, .events] s (execEmptyPlanTimer now s) := by
  refine .event (ps := [.ssc, .omap, .ntab, .cpl, .links, .events]) fun u => ?_
  split
  · exact .ite (fun _ => (withSsc_touches _ _).step (completeRound_touches _ _)) (fun _ => .refl _ _)
  · exact .refl _ _
  · exact .refl _ _

theorem searchTimeout_frame (now : AT) (k : TrackerId) (s : State) :
    CompletesIn [.now, .otk, .ssc, .events] s (execSearchTimeout now k s) := by
  refine .event (ps := [.otk, .ssc, .events]) fun u => ?_
  split
  · exact .refl _ _
  · split
    · exact .ite (fun _ => searchTimedOut_touches _ _ _) (fun _ => .refl _ _)
    · exact .refl _ _
    · exact .refl _ _

theorem holdoverExpiry_frame (now : AT) (k : TrackerId) (s : State) :
    CompletesIn [.now, .otk, .ssc, .events] s (execHoldoverExpiry now k s) := by
  refine .event (ps := [.otk, .ssc, .events]) fun u => ?_
  split
  · exact .refl _ _
  · split
    · exact .ite (fun _ => holdoverExpired_touches _ _) (fun _ => .refl _ _)
    · exact .refl _ _
    · exact .refl _ _

theorem radarBarExpiry_frame (now : AT) (c : Chan) (s : State) :
    CompletesIn [.now, .omap] s (execRadarBarExpiry now c s) := by
  refine .event (ps := [.omap]) fun u => ?_
  split
  · exact .refl _ _
  · exact .ite (fun _ => setChan_touches _ _ _) (fun _ => .refl _ _)

theorem overheard_frame (now : AT) (r : Radio) (n : BitVec 32) (c raw : Byte) (a : BitVec 32) (s : State) :
    CompletesIn [.now, .links, .agt, .cpl, .events, .ntab] s (execOverheard now r n c raw a s) :=
  .radioEvent (ps := [.links, .agt, .cpl, .events, .ntab])
    fun u => withChan_touches _ _ _ _ fun c => (overheardReport_touches _ _ _ _ _ _).mono

theorem radar_frame (now : AT) (r : Radio) (c : Byte) (s : State) :
    CompletesIn [.now, .links, .agt, .cpl, .events, .omap] s (execRadar now r c s) :=
  .radioEvent (ps := [.links, .agt, .cpl, .events, .omap])
    fun u => withChan_touches _ _ _ _ fun c => (barChannel_touches _ _).step (plannerRadar_touches _ _)

theorem linkFramingError_frame (now : AT) (r : Radio) (type len : Byte) (s : State) :
    CompletesIn [.now, .links, .events] s (execLinkFramingError now r type len s) := by
  refine .event (ps := [.links, .events]) fun u => ?_
  split
  · exact .refl _ _
  · split
    · exact linkError_touches _ _ _
    · exact .refl _ _

theorem silenceTimerExpiry_frame (now : AT) (r : Radio) (s : State) :
    CompletesIn [.now, .links, .agt, .events] s (execSilenceTimerExpiry now r s) := by
  refine .event (ps := [.links, .agt, .events]) fun u => ?_
  split
  · exact .refl _ _
  · exact .ite (fun _ => silenceExpired_touches _ _) (fun _ => .refl _ _)

theorem switchDeadline_frame (now : AT) (r : Radio) (s : State) :
    CompletesIn [.now, .cpl, .events] s (execSwitchDeadline now r s) := by
  refine .event (ps := [.cpl, .events]) fun u => ?_
  split
  · exact .refl _ _
  · exact .ite (fun _ => (setRecord_touches _ _ _).step (raise_touches _ _ _)) (fun _ => .refl _ _)

theorem grantExpiry_frame (now : AT) (r : Radio) (s : State) :
    CompletesIn [.now, .agt, .events] s (execGrantExpiry now r s) := by
  refine .event (ps := [.agt, .events]) fun u => ?_
  split
  · exact .refl _ _
  · exact .ite (fun _ => (closeGrant_touches _ _ _).step (raise_touches _ _ _)) (fun _ => .refl _ _)

/-! ## The commands whose bodies are one operation -/

theorem readIdentity_frame (now : AT) (s : State) :
    CompletesIn [.now, .host] s (execReadIdentity now s) :=
  .read fun _ _ => rfl

theorem readStatus_frame (now : AT) (s : State) :
    CompletesIn [.now, .host] s (execReadStatus now s) :=
  .read fun _ _ => rfl

theorem resetPart_frame (now : AT) (s : State) :
    CompletesIn [.now, .host] s (execResetPart now s) :=
  .hostHandle (ps := [.host]) (fun _ _ => withHost_touches _ _) fun _ _ => rfl

theorem resetMap_frame (now : AT) (s : State) :
    CompletesIn [.now, .host, .omap, .ntab, .cpl] s (execResetMap now s) :=
  .handle (ps := [.omap, .ntab, .cpl]) fun _ _ =>
    ((withOmap_touches _ _).step (withNtab_touches _ _)).trans (resetPlans_touches _).mono

theorem setHostSilence_frame (now : AT) (s : State) :
    CompletesIn [.now, .host] s (execSetHostSilence now s) :=
  .hostHandle (ps := [.host]) (fun _ _ => withHost_touches _ _) fun _ _ => rfl

theorem readEvents_frame (now : AT) (s : State) :
    CompletesIn [.now, .host, .events] s (execReadEvents now s) :=
  .handle (ps := [.events]) fun _ _ => withEvents_touches _ _

theorem setEventMask_frame (now : AT) (s : State) :
    CompletesIn [.now, .host, .events] s (execSetEventMask now s) :=
  .handle (ps := [.events]) fun _ _ => withEvents_touches _ _

theorem commitPlan_frame (now : AT) (s : State) :
    CompletesIn [.now, .host, .ssc, .events] s (execCommitPlan now s) :=
  .handle fun _ _ => commitPlan_touches _

theorem readPlan_frame (now : AT) (s : State) :
    CompletesIn [.now, .host] s (execReadPlan now s) :=
  .read fun _ _ => by split <;> rfl

theorem setRoundInterval_frame (now : AT) (s : State) :
    CompletesIn [.now, .host, .ssc] s (execSetRoundInterval now s) :=
  .handle fun _ _ => setInterval_touches _ _

theorem setWatch_frame (now : AT) (s : State) :
    CompletesIn [.now, .host, .ssc] s (execSetWatch now s) :=
  .handle (ps := [.ssc]) fun _ _ => (withSsc_touches _ _).trans (wakeIfParked_touches _)

theorem readSchedule_frame (now : AT) (s : State) :
    CompletesIn [.now, .host, .ssc] s (execReadSchedule now s) :=
  .handle fun _ _ => startRoundIfPassed_touches _

theorem calibrate_frame (now : AT) (s : State) :
    CompletesIn [.now, .host, .ssc, .bcl, .omap, .events] s (execCalibrate now s) :=
  .handle calibrateWith_touches

theorem readCalibration_frame (now : AT) (s : State) :
    CompletesIn [.now, .host] s (execReadCalibration now s) :=
  .read fun _ _ => rfl

theorem readIntake_frame (now : AT) (s : State) :
    CompletesIn [.now, .host] s (execReadIntake now s) :=
  .read fun _ _ => rfl

theorem setTracker_frame (now : AT) (s : State) :
    CompletesIn [.now, .host, .otk] s (execSetTracker now s) :=
  .handle (ps := [.otk]) fun _ _ => by
    split
    · exact setTracker_touches _ _ _
    · exact .refl _ _

theorem restartTracker_frame (now : AT) (s : State) :
    CompletesIn [.now, .host, .otk, .ssc] s (execRestartTracker now s) :=
  .handle (ps := [.otk, .ssc]) fun _ _ => by
    split
    · exact toIdle_touches _ _
    · exact .refl _ _

theorem readTracker_frame (now : AT) (s : State) :
    CompletesIn [.now, .host] s (execReadTracker now s) :=
  .read fun _ _ => by split <;> rfl

theorem readChannel_frame (now : AT) (s : State) :
    CompletesIn [.now, .host] s (execReadChannel now s) :=
  .read fun _ _ => by split <;> rfl

theorem readMap_frame (now : AT) (s : State) :
    CompletesIn [.now, .host] s (execReadMap now s) :=
  .read fun _ _ => rfl

theorem setMargin_frame (now : AT) (s : State) :
    CompletesIn [.now, .host, .omap] s (execSetMargin now s) :=
  .handle (ps := [.omap]) fun _ _ => withOmap_touches _ _

theorem setWeights_frame (now : AT) (s : State) :
    CompletesIn [.now, .host, .omap] s (execSetWeights now s) :=
  .handle (ps := [.omap]) fun _ _ => withOmap_touches _ _

theorem setBarTime_frame (now : AT) (s : State) :
    CompletesIn [.now, .host, .omap] s (execSetBarTime now s) :=
  .handle (ps := [.omap]) fun _ _ => withOmap_touches _ _

theorem barChannel_frame (now : AT) (s : State) :
    CompletesIn [.now, .host, .omap] s (execBarChannel now s) :=
  .handle (setHeldOut_touches _)

theorem unbar_frame (now : AT) (s : State) :
    CompletesIn [.now, .host, .omap] s (execUnbar now s) :=
  .handle (setHeldOut_touches _)

theorem readNeighbours_frame (now : AT) (s : State) :
    CompletesIn [.now, .host] s (execReadNeighbours now s) :=
  .read fun _ _ => by split <;> rfl

theorem setNeighbourAge_frame (now : AT) (s : State) :
    CompletesIn [.now, .host, .ntab] s (execSetNeighbourAge now s) :=
  .handle (ps := [.ntab]) fun _ _ => withNtab_touches _ _

theorem clearHold_frame (now : AT) (s : State) :
    CompletesIn [.now, .host, .cpl] s (execClearHold now s) :=
  .handle (ps := [.cpl]) fun _ _ => by
    split
    · exact setRecord_touches _ _ _
    · exact .refl _ _

theorem readPlanner_frame (now : AT) (s : State) :
    CompletesIn [.now, .host] s (execReadPlanner now s) :=
  .read fun _ _ => rfl

theorem setExclusion_frame (now : AT) (s : State) :
    CompletesIn [.now, .host, .agt] s (execSetExclusion now s) :=
  .handle (ps := [.agt]) fun _ _ => by
    split
    · exact withAgt_touches _ _
    · exact .refl _ _

theorem setLatency_frame (now : AT) (s : State) :
    CompletesIn [.now, .host, .agt] s (execSetLatency now s) :=
  .handle (ps := [.agt]) fun _ _ => by
    split
    · exact setGate_touches _ _ _
    · exact .refl _ _

theorem readGate_frame (now : AT) (s : State) :
    CompletesIn [.now, .host] s (execReadGate now s) :=
  .read fun _ _ => by split <;> rfl

theorem readGrants_frame (now : AT) (s : State) :
    CompletesIn [.now, .host] s (execReadGrants now s) :=
  .read fun _ _ => by split <;> rfl

theorem readLink_frame (now : AT) (s : State) :
    CompletesIn [.now, .host] s (execReadLink now s) :=
  .read fun _ _ => by split <;> rfl

theorem ready_frame (now : AT) (id : Byte) (s : State) :
    CompletesIn closeParts s (execReady now id s) :=
  .senseEvent (readyRecord_touches _)

theorem burst_frame (now : AT) (id : Byte) (offset : BitVec 24) (duration : BitVec 16) (raw : Byte)
    (cutStart cutEnd : Bool) (s : State) :
    CompletesIn [.now, .ssc, .bcl, .otk, .omap, .events] s (execBurst now id offset duration raw cutStart cutEnd s) :=
  .senseEvent (burstRecord_touches _ _ _ _ _ _)

theorem close_frame (now : AT) (id : Byte) (rawFloor : Byte) (rawRef : Byte) (s : State) :
    CompletesIn closeParts s (execClose now id rawFloor rawRef s) :=
  .senseEvent (closeRecord_touches _ _)

theorem roundDue_frame (now : AT) (s : State) :
    CompletesIn [.now, .ssc] s (execRoundDue now s) :=
  .event (ps := [.ssc]) fun _ => (startRoundIfDue_touches _).trans (wakeIfParked_touches _)

theorem watchDue_frame (now : AT) (s : State) :
    CompletesIn [.now, .ssc] s (execWatchDue now s) :=
  .event (ps := [.ssc]) fun _ => .ite (fun _ => wakeIfParked_touches _) (fun _ => .refl _ _)

theorem senseRecordDiscard_frame (now : AT) (type : Byte) (len : Byte) (s : State) :
    CompletesIn [.now] s (execSenseRecordDiscard now type len s) :=
  .event (ps := []) fun _ => .refl _ _

theorem senseTruncation_frame (now : AT) (s : State) :
    CompletesIn [.now] s (execSenseTruncation now s) :=
  .event (ps := []) fun _ => .refl _ _

theorem senseResyncClear_frame (now : AT) (s : State) :
    CompletesIn [.now, .ssc] s (execSenseResyncClear now s) :=
  .event (ps := [.ssc]) fun _ => withSsc_touches _ _

theorem barClockTick_frame (now : AT) (s : State) :
    CompletesIn [.now, .omap] s (execBarClockTick now s) :=
  .event (ps := [.omap]) fun _ => .ite (fun _ => withOmap_touches _ _) (fun _ => .refl _ _)

theorem status_frame (now : AT) (r : Radio) (band : Byte) (chan : Byte) (s : State) :
    CompletesIn [.now, .links, .agt, .cpl, .events] s (execStatus now r band chan s) :=
  .radioEvent (statusChecked_touches _ _ _ _)

theorem airRequest_frame (now : AT) (r : Radio) (tag : Byte) (len minLen maxWait : BitVec 16) (cls : Byte)
    (s : State) :
    CompletesIn [.now, .links, .agt, .cpl, .events] s (execAirRequest now r tag len minLen maxWait cls s) :=
  .radioEvent (ps := [.links, .agt, .cpl, .events])
    fun _ => (airRequest_touches _ _ _ _ _ _ _).mono

theorem airEnd_frame (now : AT) (r : Radio) (tag : Byte) (used : BitVec 16) (s : State) :
    CompletesIn [.now, .links, .agt, .cpl, .events] s (execAirEnd now r tag used s) :=
  .radioEvent (ps := [.links, .agt, .cpl, .events]) fun _ => (airEnd_touches _ _ _ _).mono

theorem switched_frame (now : AT) (r : Radio) (chan : Byte) (s : State) :
    CompletesIn [.now, .links, .agt, .cpl, .events] s (execSwitched now r chan s) :=
  .radioEvent (ps := [.links, .agt, .cpl, .events])
    fun _ => withChan_touches _ _ _ _ fun _ => switchedTaken_touches _ _ _

theorem linkTruncation_frame (now : AT) (r : Radio) (s : State) :
    CompletesIn [.now, .links, .events] s (execLinkTruncation now r s) :=
  .event (ps := [.links, .events])
    fun _ => .ite (fun _ => .refl _ _) (fun _ => linkError_touches _ _ _)

theorem linkResyncClear_frame (now : AT) (r : Radio) (s : State) :
    CompletesIn [.now, .links] s (execLinkResyncClear now r s) :=
  .event (ps := [.links]) fun _ => setLink_touches _ _ _

theorem grantEntryAgeOut_frame (now : AT) (b : Band) (s : State) :
    CompletesIn [.now, .agt] s (execGrantEntryAgeOut now b s) :=
  .event (ps := [.agt]) fun _ => (setRecent_touches _ _ _).trans (unlinkAll_touches _ _)

/-! ## Every command -/

theorem exec_frame (c : Instr) (s : State) : CompletesIn (touched c) s (exec c s) :=
  match c with
  | .fullReset _ => ⟨_, rfl, touchesOnly_resetParts rfl, fun h =>
      absurd (show Part.phase ∈ resetParts by decide) h⟩
  | .startInstant dom mains => startInstant_frame dom mains s
  | .writeTransaction now bytes => writeTransaction_frame now bytes s
  | .readTransaction now m => readTransaction_frame now m s
  | .resetPartDeadline now => resetPartDeadline_frame now s
  | .unknownCommand now => unknownCommand_frame now s
  | .hostSilenceExpiry now => hostSilenceExpiry_frame now s
  | .readIdentity now => readIdentity_frame now s
  | .readStatus now => readStatus_frame now s
  | .resetPart now => resetPart_frame now s
  | .resetMap now => resetMap_frame now s
  | .setHostSilence now => setHostSilence_frame now s
  | .readEvents now => readEvents_frame now s
  | .setEventMask now => setEventMask_frame now s
  | .writePlanEntry now => writePlanEntry_frame now s
  | .clearPlan now => clearPlan_frame now s
  | .commitPlan now => commitPlan_frame now s
  | .readPlan now => readPlan_frame now s
  | .setRoundInterval now => setRoundInterval_frame now s
  | .setWatch now => setWatch_frame now s
  | .readSchedule now => readSchedule_frame now s
  | .calibrate now => calibrate_frame now s
  | .calibrateRevert now => calibrateRevert_frame now s
  | .writeCorrection now => writeCorrection_frame now s
  | .readCalibration now => readCalibration_frame now s
  | .readIntake now => readIntake_frame now s
  | .setTracking now => setTracking_frame now s
  | .setTracker now => setTracker_frame now s
  | .restartTracker now => restartTracker_frame now s
  | .readTracker now => readTracker_frame now s
  | .readChannel now => readChannel_frame now s
  | .readMap now => readMap_frame now s
  | .setAveraging now => setAveraging_frame now s
  | .setMargin now => setMargin_frame now s
  | .setWeights now => setWeights_frame now s
  | .setBarTime now => setBarTime_frame now s
  | .barChannel now => barChannel_frame now s
  | .unbar now => unbar_frame now s
  | .readNeighbours now => readNeighbours_frame now s
  | .markFriendly now => markFriendly_frame now s
  | .setNeighbourAge now => setNeighbourAge_frame now s
  | .setPlanner now => setPlanner_frame now s
  | .setRadio now => setRadio_frame now s
  | .setChannel now => setChannel_frame now s
  | .acceptProposal now => acceptProposal_frame now s
  | .clearHold now => clearHold_frame now s
  | .readPlanner now => readPlanner_frame now s
  | .setGate now => setGate_frame now s
  | .setExclusion now => setExclusion_frame now s
  | .setLatency now => setLatency_frame now s
  | .readGate now => readGate_frame now s
  | .readGrants now => readGrants_frame now s
  | .setSilence now => setSilence_frame now s
  | .readLink now => readLink_frame now s
  | .ready now id => ready_frame now id s
  | .burst now id offset duration raw cutStart cutEnd => burst_frame now id offset duration raw cutStart cutEnd s
  | .close now id rawFloor rawRef => close_frame now id rawFloor rawRef s
  | .dwellEnd now => dwellEnd_frame now s
  | .tuneTimeout now => tuneTimeout_frame now s
  | .closeWaitExpiry now => closeWaitExpiry_frame now s
  | .faultRetry now => faultRetry_frame now s
  | .roundDue now => roundDue_frame now s
  | .watchDue now => watchDue_frame now s
  | .emptyPlanTimer now => emptyPlanTimer_frame now s
  | .senseRecordDiscard now type len => senseRecordDiscard_frame now type len s
  | .senseTruncation now => senseTruncation_frame now s
  | .senseResyncClear now => senseResyncClear_frame now s
  | .searchTimeout now k => searchTimeout_frame now k s
  | .holdoverExpiry now k => holdoverExpiry_frame now k s
  | .barClockTick now => barClockTick_frame now s
  | .radarBarExpiry now c => radarBarExpiry_frame now c s
  | .status now r band chan => status_frame now r band chan s
  | .airRequest now r tag len minLen maxWait cls => airRequest_frame now r tag len minLen maxWait cls s
  | .airEnd now r tag used => airEnd_frame now r tag used s
  | .overheard now r n c raw a => overheard_frame now r n c raw a s
  | .radar now r c => radar_frame now r c s
  | .switched now r chan => switched_frame now r chan s
  | .linkFramingError now r type len => linkFramingError_frame now r type len s
  | .linkTruncation now r => linkTruncation_frame now r s
  | .linkResyncClear now r => linkResyncClear_frame now r s
  | .silenceTimerExpiry now r => silenceTimerExpiry_frame now r s
  | .switchDeadline now r => switchDeadline_frame now r s
  | .grantExpiry now r => grantExpiry_frame now r s
  | .grantEntryAgeOut now b => grantEntryAgeOut_frame now b s

theorem pending_not_mem_touched (c : Instr) : Part.pending ∉ touched c := by
  cases c <;> simp [touched, resetParts, closeParts]

/-- Settles O3: the frame of each command, which never holds the queue. -/
theorem everyCommandCompletesInItsFrame : Obligations.EveryCommandCompletesInItsFrame := by
  unfold Obligations.EveryCommandCompletesInItsFrame
  intro c s
  obtain ⟨t, ht, hframe, _⟩ := exec_frame c s
  exact ⟨t, ht, hframe, (hframe .pending (pending_not_mem_touched c)).symm⟩

theorem exec_touches {c : Instr} {s t : State} (h : exec c s = .next t) : touchesOnly (touched c) s t := by
  obtain ⟨t', ht', hframe, _⟩ := exec_frame c s
  obtain rfl : t = t' := Host.Outcome.next.inj (h.symm.trans ht')
  exact hframe

theorem exec_dom {c : Instr} {s t : State} (h : exec c s = .next t) (hc : Part.phase ∉ touched c) :
    t.host.dom = s.host.dom := by
  obtain ⟨t', ht', _, hdom⟩ := exec_frame c s
  obtain rfl : t = t' := Host.Outcome.next.inj (h.symm.trans ht')
  exact hdom hc

end Sys2Proof.Machine
end

section
/-! What an invariant needs so that every command keeps it: a state part it does not read may change freely; the frames of
commands (chapter 9), and the operations of the sweep (chapter 1), are gone through once for any invariant. -/

namespace Sys2Proof.Machine

set_option Elab.async false

/-! ## Reading parts of the state -/

/-- `P` reads the parts `qs` of the state alone. -/
def Reads (qs : List Part) (P : State → Prop) : Prop := ∀ s t : State, (∀ p ∈ qs, s.agree t p) → P s → P t

theorem Reads.quiet {qs ps : List Part} {P : State → Prop} {s t : State} (hP : Reads qs P) (hs : P s)
    (h : touchesOnly ps s t) (hd : ps.all (fun p => decide (p ∉ qs)) = true := by rfl) : P t := by
  refine hP s t (fun p hp => h p fun hm => ?_) hs
  simpa [hp] using List.all_eq_true.mp hd p hm

/-! ## The frames of commands -/

/-- `P` is kept by what the frame of every command does, and by the resets. -/
structure KeptByFrames (P : State → Prop) : Prop where
  now : ∀ {s} (t : AT), P s → P (s.withNow t)
  /-- The host port's other fields, the latched domain kept. -/
  host : ∀ {s} {x : HostPort}, x.dom = s.host.dom → P s → P (s.withHost x)
  pending : ∀ {s} (q : List Instr), P s → P (s.withPending q)
  fullReset : ∀ cause q, P (inFullReset cause q)
  beginWork : ∀ cause dom mains q, P (beginWork cause dom mains 0 (fun _ => 0) [] q)
  resetPart : ∀ {s}, P s → P (resetPartNow s)

section Frames

variable {P : State → Prop} {s t : State} {now : AT}

theorem KeptByFrames.answer (hP : KeptByFrames P) (c : InHand) (reply : Code × List Byte) (hs : P s) :
    P (answer c reply s) :=
  hP.host (x := { s.host with inHand := none, response := some ⟨reply.1, c.code, reply.2⟩ }) rfl hs

theorem KeptByFrames.event (hP : KeptByFrames P) {body : State → State} (hb : ∀ {u}, P u → P (body u)) (hs : P s)
    (h : event now s body = .next t) : P t := by
  rcases event_cases h with ⟨_, _, rfl⟩ | ⟨_, rfl⟩
  · exact hs
  · exact hb (hP.now _ hs)

theorem KeptByFrames.handle (hP : KeptByFrames P) {k n : Nat} {body : List Byte → State → (Code × List Byte) × State}
    (hb : ∀ {p u}, P u → P (body p u).2) (hs : P s) (h : handle k n now s body = .next t) : P t := by
  rcases handle_cases h with rfl | rfl | ⟨c, _, _, rfl | rfl⟩
  · exact hs
  · exact hP.now _ hs
  · exact hP.answer _ _ (hP.now _ hs)
  · exact hP.answer _ _ (hb (hP.now _ hs))

theorem KeptByFrames.senseEvent (hP : KeptByFrames P) {body : State → State} (hb : ∀ {u}, P u → P (body u)) (hs : P s)
    (h : senseEvent now s body = .next t) : P t := by
  refine hP.event (fun {u} hu => ?_) hs h
  split
  · exact hu
  · exact hb hu

theorem KeptByFrames.radioEvent (hP : KeptByFrames P) {r : Radio} {body : State → State}
    (hvalid : ∀ {u}, P u → P (takeValid r u)) (hb : ∀ {u}, P u → P (body u)) (hs : P s)
    (h : radioEvent now r s body = .next t) : P t := by
  refine hP.event (fun {u} hu => ?_) hs h
  split
  · exact hu
  · exact hb (hvalid hu)

theorem KeptByFrames.readResponse (hP : KeptByFrames P) (extra : Nat) (hs : P s) : P (readResponse extra s) := by
  obtain ⟨x, _, ⟨_, _, _, h⟩ | ⟨_, h⟩⟩ := readResponse_cases extra s
  · rw [h]
    exact hP.resetPart (hP.host (by rfl) hs)
  · rw [h]
    exact hP.host (by rfl) hs

theorem writeFrame_dom (now : AT) (bytes : List Byte) (h : HostPort) : (writeFrame now bytes h).dom = h.dom := by
  unfold writeFrame
  split
  · split
    · unfold takeFrame
      dsimp only
      split <;> rfl
    · rfl
  · rfl
  · rfl

theorem KeptByFrames.writeTransaction (hP : KeptByFrames P) {bytes : List Byte} (hs : P s)
    (h : execWriteTransaction now bytes s = .next t) : P t := by
  refine hP.event (fun {u} hu => ?_) hs h
  split
  · exact hu
  · split
    · exact hP.readResponse _ hu
    · exact hP.host (writeFrame_dom _ _ _) hu

theorem KeptByFrames.readTransaction (hP : KeptByFrames P) {m : ReadMoment} (hs : P s)
    (h : execReadTransaction now m s = .next t) : P t := by
  refine hP.event (fun {u} hu => ?_) hs h
  cases m
  case firstByte => exact hP.host (by rfl) hu
  case deselection extra => exact hP.readResponse _ hu

theorem KeptByFrames.resetPartDeadline (hP : KeptByFrames P) (hs : P s)
    (h : execResetPartDeadline now s = .next t) : P t := by
  refine hP.event (fun {u} hu => ?_) hs h
  split
  · exact hu
  · split
    · exact hP.resetPart hu
    · exact hu

theorem KeptByFrames.startInstant (hP : KeptByFrames P) {dom mains : BitVec 2} (hs : P s)
    (h : execStartInstant dom mains s = .next t) : P t := by
  unfold execStartInstant at h
  split at h
  · cases h; exact hs
  · cases h; exact hP.beginWork _ _ _ _

theorem KeptByFrames.fullReset_next (hP : KeptByFrames P) {p : Bool} (h : execFullReset p s = .next t) : P t := by
  cases h
  exact hP.fullReset _ _

/-- An invariant that every command keeps is kept by every step. -/
theorem KeptByFrames.step (hP : KeptByFrames P) (hexec : ∀ {c : Instr} {s t : State}, P s → exec c s = .next t → P t)
    (hs : P s) (h : step s = .next t) : P t := by
  obtain ⟨_, rfl⟩ | ⟨c, rest, _, hc⟩ := step_cases h
  · exact hs
  · exact hexec (hP.pending rest hs) hc

/-- An invariant that reads neither AT, the host port, the schedule nor the queue. -/
theorem Reads.keptByFrames {qs : List Part} (hR : Reads qs P)
    (hd : [Part.now, .host, .ssc, .pending].all (fun p => decide (p ∉ qs)) = true)
    (hfull : ∀ cause q, P (inFullReset cause q))
    (hstart : ∀ cause dom mains id out q, P (State.start cause dom mains id (fun _ => 0) out q))
    (hpart : ∀ {s}, P s →
      P (State.start .hostReset s.host.dom s.host.mains s.ssc.nextId (fun c => (s.chan c).correction) s.host.shiftedOut
        s.pending)) :
    KeptByFrames P := by
  have hall (p : Part) (hp : p ∈ [Part.now, .host, .ssc, .pending]) : [p].all (fun p => decide (p ∉ qs)) = true := by
    simpa using List.all_eq_true.mp hd p hp
  have hbegin {u : State} (hu : P u) : P (boundary u) := hR.quiet hu (boundary_touches _) (hall .ssc (by decide))
  exact
    { now := fun t hs => hR.quiet hs (withNow_touches _ _) (hall .now (by decide))
      host := fun _ hs => hR.quiet hs (withHost_touches _ _) (hall .host (by decide))
      pending := fun {s} q hs => hR.quiet hs (ps := [.pending]) (t := s.withPending q)
        (fun p hp => by cases p <;> first | rfl | exact absurd (by decide) hp) (hall .pending (by decide))
      fullReset := hfull
      beginWork := fun _ _ _ _ => hbegin (hstart _ _ _ _ _ _)
      resetPart := fun hs => hR.quiet (hbegin (hpart hs)) (withHost_touches _ _) (hall .host (by decide)) }

end Frames

/-! ## The operations of the sweep -/

/-- `P` is kept by what the life of a dwell is made of. -/
structure KeptBySweep (P : State → Prop) : Prop where
  handOver : ∀ {s} d ready rep, P s → P (handOver d ready rep s)
  calOutcome : ∀ {s} d m, P s → P (calOutcome d m s)
  tableCompletion : ∀ {s}, P s → P (tableCompletion s)
  mapPass : ∀ {s} n, P s → P (mapPass n s)
  planningPass : ∀ {s}, P s → P (planningPass s)
  openTally : ∀ {s} d ready, P s → P (openTally d ready s)
  clearFault : ∀ {s}, P s → P (clearFault s)
  enterFault : ∀ {s}, P s → s.ssc.current = none → P (enterFault s)
  visit : ∀ {s}, P s → P (visit s).1
  boundary : ∀ {s}, P s → P (boundary s)
  /-- A dwell that is current already is in another condition. -/
  current : ∀ {s} c, s.ssc.current ≠ none → P s → P (s.withSsc { s.ssc with current := some c })
  noCurrent : ∀ {s}, P s → P (s.withSsc { s.ssc with current := none })
  ended : ∀ {s} e, P s → P (s.withSsc { s.ssc with ended := e })
  lastWatch : ∀ {s} x, P s → P (s.withSsc { s.ssc with lastWatch := x })
  timeouts : ∀ {s} n, n ≤ 3 → P s → P (s.withSsc { s.ssc with timeouts := n })

section Sweep

variable {P : State → Prop} {s t : State} {now : AT}

theorem KeptBySweep.completeRound (hP : KeptBySweep P) (n : BitVec 16) (hs : P s) : P (completeRound n s) :=
  hP.planningPass (hP.mapPass n (hP.tableCompletion hs))

theorem KeptBySweep.completeIf (hP : KeptBySweep P) (n : Option (BitVec 16)) (hs : P s) : P (completeIf n s) := by
  cases n
  case none => exact hs
  case some n => exact hP.completeRound n hs

theorem KeptBySweep.closeDwell (hP : KeptBySweep P) (d : Dwell) (ready : AT) (rep : Option Report)
    (n : Option (BitVec 16)) (hs : P s) : P (closeDwell d ready rep n s) := by
  unfold Machine.closeDwell
  refine hP.completeIf n ?_
  split
  · exact hP.calOutcome _ _ hs
  · exact hP.handOver _ _ _ hs
  · exact hP.handOver _ _ _ hs

theorem KeptBySweep.closeEnded (hP : KeptBySweep P) (rep : Option Report) (hs : P s) : P (closeEnded rep s) := by
  unfold Machine.closeEnded
  split
  · exact hs
  · exact hP.closeDwell _ _ _ _ (hP.ended none hs)

theorem KeptBySweep.openDwell (hP : KeptBySweep P) (d : Dwell) (hc : s.ssc.current ≠ none) (hs : P s) :
    P (openDwell d s) := by
  have h1 := hP.lastWatch (noteWatch d s.now s.ssc.lastWatch)
    (hP.timeouts 0 (Nat.zero_le 3) (hP.current ⟨d, .opened s.now none⟩ hc hs))
  exact hP.closeEnded none (hP.openTally d s.now (hP.clearFault h1))

theorem KeptBySweep.readyRecord (hP : KeptBySweep P) (id : Byte) (hs : P s) : P (readyRecord id s) := by
  unfold Machine.readyRecord
  split
  · exact hs
  · split
    · exact hP.openDwell _ (by simp_all) hs
    · exact hs
  · exact hs

theorem KeptBySweep.holdClose (hP : KeptBySweep P) (id : Byte) (rep : Report) (hs : P s) : P (holdClose id rep s) := by
  unfold Machine.holdClose
  split
  · split
    · exact hP.current _ (by simp_all) hs
    · exact hs
  all_goals exact hs

theorem KeptBySweep.closeRecord (hP : KeptBySweep P) (id : Byte) (rep : Report) (hs : P s) :
    P (closeRecord id rep s) := by
  unfold Machine.closeRecord
  split
  · split
    · exact hP.closeEnded _ hs
    · exact hP.holdClose _ _ hs
  · exact hP.holdClose _ _ hs

theorem KeptBySweep.endDwell (hP : KeptBySweep P) (d : Dwell) (ready : AT) (held : Option Report) (hs : P s) :
    P (endDwell d ready held s) := by
  have hv : P (if d.kind = .sweep then Machine.visit (s.withSsc { s.ssc with current := none })
      else (s.withSsc { s.ssc with current := none }, none)).1 := by
    split
    · exact hP.visit (hP.noCurrent hs)
    · exact hP.noCurrent hs
  unfold Machine.endDwell
  dsimp only
  split
  · exact hP.boundary (hP.closeDwell _ _ _ _ hv)
  · exact hP.boundary (hP.ended _ hv)

theorem KeptBySweep.skipDwell (hP : KeptBySweep P) (d : Dwell) (orderAT : AT) (hs : P s) :
    P (skipDwell d orderAT s) := by
  unfold Machine.skipDwell
  split
  · exact hP.completeIf _ (hP.visit hs)
  · exact hP.lastWatch _ hs
  · exact hP.calOutcome _ _ hs

/-- A round's end leaves the current dwell as it is. -/
theorem visit_current (s : State) : (visit s).1.ssc.current = s.ssc.current := by
  unfold visit
  dsimp only
  split
  · unfold endRound
    dsimp only
    split <;> split <;> rfl
  · rfl

theorem skipDwell_current (d : Dwell) (orderAT : AT) (s : State) :
    (skipDwell d orderAT s).ssc.current = s.ssc.current := by
  unfold skipDwell
  split
  · rw [← completeIf_touches _ _ .ssc (by decide), visit_current]
  · rfl
  · rw [← calOutcome_touches _ _ _ .ssc (by decide)]

theorem KeptBySweep.tuneTimedOut (hP : KeptBySweep P) (d : Dwell) (orderAT : AT) (hs : P s) :
    P (tuneTimedOut d orderAT s) := by
  have h1 := hP.skipDwell d orderAT (hP.noCurrent (hP.timeouts (min 3 (s.ssc.timeouts + 1)) (Nat.min_le_left _ _) hs))
  unfold Machine.tuneTimedOut
  dsimp only
  split
  · exact h1
  · split
    · exact hP.enterFault h1 (by rw [skipDwell_current]; rfl)
    · exact hP.boundary h1

theorem KeptBySweep.dwellEnd (hP : KeptBySweep P) (hF : KeptByFrames P) (hs : P s)
    (h : execDwellEnd now s = .next t) : P t := by
  refine hF.event (fun {u} hu => ?_) hs h
  split
  · exact hu
  · exact hu
  · split
    · exact hP.endDwell _ _ _ hu
    · exact hu

theorem KeptBySweep.tuneTimeout (hP : KeptBySweep P) (hF : KeptByFrames P) (hs : P s)
    (h : execTuneTimeout now s = .next t) : P t := by
  refine hF.event (fun {u} hu => ?_) hs h
  split
  · exact hu
  · exact hu
  · split
    · exact hP.tuneTimedOut _ _ hu
    · exact hu

theorem KeptBySweep.closeWaitExpiry (hP : KeptBySweep P) (hF : KeptByFrames P) (hs : P s)
    (h : execCloseWaitExpiry now s = .next t) : P t := by
  refine hF.event (fun {u} hu => ?_) hs h
  split
  · exact hu
  · split
    · exact hu
    · split
      · exact hP.closeEnded _ hu
      · exact hu

theorem KeptBySweep.emptyPlanTimer (hP : KeptBySweep P) (hF : KeptByFrames P)
    (hround : ∀ {u} n fires, P u → P (u.withSsc { u.ssc with roundNumber := n, phase := .stopped fires })) (hs : P s)
    (h : execEmptyPlanTimer now s = .next t) : P t := by
  refine hF.event (fun {u} hu => ?_) hs h
  split
  · split
    · exact hP.completeRound _ (hround _ _ hu)
    · exact hu
  · exact hu
  · exact hu

/-- An invariant that reads neither the schedule, the classifier nor the events is kept by the operations that touch these
alone. -/
theorem Reads.keptBySweep {qs : List Part} (hR : Reads qs P)
    (hd : [Part.ssc, .bcl, .events].all (fun p => decide (p ∉ qs)) = true)
    (handOver : ∀ {s} d ready rep, P s → P (handOver d ready rep s))
    (calOutcome : ∀ {s} d m, P s → P (calOutcome d m s))
    (tableCompletion : ∀ {s}, P s → P (tableCompletion s)) (mapPass : ∀ {s} n, P s → P (mapPass n s))
    (planningPass : ∀ {s}, P s → P (planningPass s)) (enterFault : ∀ {s}, P s → P (enterFault s)) : KeptBySweep P := by
  have hssc {u v : State} (h : touchesOnly [.ssc] u v) (hu : P u) : P v :=
    hR.quiet hu (h.mono (rs := [.ssc, .bcl, .events])) hd
  have hev {u v : State} (h : touchesOnly [.ssc, .events] u v) (hu : P u) : P v :=
    hR.quiet hu (h.mono (rs := [.ssc, .bcl, .events])) hd
  exact
    { handOver, calOutcome, tableCompletion, mapPass, planningPass
      openTally := fun d ready hs => hR.quiet hs ((openTally_touches d ready _).mono (rs := [.ssc, .bcl, .events])) hd
      clearFault := hev (clearFault_touches _)
      enterFault := fun hs _ => enterFault hs
      visit := hev (visit_touches _)
      boundary := hssc (boundary_touches _)
      current := fun _ _ => hssc (withSsc_touches _ _)
      noCurrent := hssc (withSsc_touches _ _)
      ended := fun _ => hssc (withSsc_touches _ _)
      lastWatch := fun _ => hssc (withSsc_touches _ _)
      timeouts := fun _ _ => hssc (withSsc_touches _ _) }

end Sweep

end Sys2Proof.Machine
end

section
/-! The neighbour table's invariant (R94): at most 64 entries, no two of one key. -/

namespace Sys2Proof.Machine

set_option Elab.async false

/-! ## Tables of distinct keys -/

/-- R94: two entries have different keys. -/
def KeysDiffer (a b : Neighbour) : Prop := ¬ (a.network = b.network ∧ a.chan = b.chan)

/-- R94: the form of a neighbour table. -/
def TableOk (es : List Neighbour) : Prop := es.length ≤ 64 ∧ es.Pairwise KeysDiffer

theorem tableInv_iff (s : State) : TableInv s ↔ TableOk s.ntab.entries := Iff.rfl

theorem tableInv_reads : Reads [.ntab] TableInv := by
  intro s t h hs
  have hn : s.ntab = t.ntab := h .ntab (by decide)
  rw [tableInv_iff] at hs ⊢
  rwa [← hn]

section Table

variable {es fs : List Neighbour}

theorem TableOk.nil : TableOk [] := ⟨Nat.zero_le _, List.Pairwise.nil⟩

theorem TableOk.sublist (h : TableOk es) (hl : fs.Sublist es) : TableOk fs :=
  ⟨hl.length_le.trans h.1, h.2.sublist hl⟩

/-- Rewriting the entries' other fields keeps the table's form. -/
theorem TableOk.map {f : Neighbour → Neighbour} (h : TableOk es)
    (hf : ∀ e, (f e).network = e.network ∧ (f e).chan = e.chan) : TableOk (es.map f) := by
  refine ⟨by simpa using h.1, List.pairwise_map.mpr (h.2.imp fun {a b} hab => ?_)⟩
  rw [KeysDiffer, (hf a).1, (hf a).2, (hf b).1, (hf b).2]
  exact hab

theorem dropAged_sublist (clock limit : Nat) (es : List Neighbour) : (dropAged clock limit es).Sublist es := by
  induction es with
  | nil => exact List.Sublist.slnil
  | cons e rest ih =>
    unfold dropAged
    split
    · split
      · exact List.nil_sublist _
      · exact (List.nil_sublist rest).cons_cons e
    · exact ih.cons_cons e

theorem hasKey_iff (n : BitVec 32) (c : Chan) (e : Neighbour) : hasKey n c e = true ↔ e.network = n ∧ e.chan = c := by
  simp [hasKey]

/-- An entry of a key that the rest does not hold goes to the head. -/
theorem TableOk.cons {e : Neighbour} (h : TableOk es) (hl : es.length < 64)
    (hk : ∀ x ∈ es, hasKey e.network e.chan x = false) : TableOk (e :: es) := by
  refine ⟨hl, List.pairwise_cons.mpr ⟨fun x hx hsame => ?_, h.2⟩⟩
  have hx := hk x hx
  rw [(hasKey_iff _ _ _).mpr ⟨hsame.1.symm, hsame.2.symm⟩] at hx
  exact absurd hx (by decide)

end Table

/-! ## The operations on the table -/

section Ops

variable {s t : State}

theorem TableInv.tableCompletion (hs : TableInv s) : TableInv (tableCompletion s) := by
  rw [tableInv_iff] at hs ⊢
  exact (hs.map (f := shared (completionInterval s)) fun _ => ⟨rfl, rfl⟩).sublist (dropAged_sublist _ _ _)

/-- R97, R98: a full table makes room for the new entry. -/
theorem TableInv.makeEntry {n : BitVec 32} {c : Chan} {level air : Nat} {r : Radio} (hs : TableInv s)
    (hk : ∀ x ∈ s.ntab.entries, hasKey n c x = false) : TableInv (makeEntry n c level air r s) := by
  rw [tableInv_iff] at hs
  unfold Machine.makeEntry
  extract_lets full kept x s'
  have hsub : kept.Sublist s.ntab.entries := by
    by_cases hf : full
    · simp only [kept, hf, if_true]; exact List.dropLast_sublist _
    · simp only [kept, hf, if_false]; exact List.Sublist.refl _
  have hlen : kept.length < 64 := by
    have h64 := hs.1
    by_cases hf : full
    · simp only [kept, hf, if_true, List.length_dropLast]; omega
    · simp only [kept, hf, if_false]; exact Nat.not_le.mp hf
  have hnew : TableInv s' := (hs.sublist hsub).cons hlen fun x hx => hk x (hsub.subset hx)
  split
  · split
    · exact tableInv_reads.quiet hnew (raise_touches _ _ _)
    · exact hnew
  · exact hnew

theorem TableInv.overheardReport {r : Radio} {n : BitVec 32} {c : Chan} {raw : Byte} {air : BitVec 32}
    (hs : TableInv s) : TableInv (overheardReport r n c raw air s) := by
  unfold Machine.overheardReport
  dsimp only
  split
  case h_2 hfind => exact hs.makeEntry fun x hx => by simpa using List.find?_eq_none.mp hfind x hx
  case h_1 e hfind =>
    rw [tableInv_iff] at hs ⊢
    obtain ⟨hn, hc⟩ := (hasKey_iff n c e).mp (List.find?_some hfind)
    have hlen : (s.ntab.entries.filter fun x => !hasKey n c x).length < s.ntab.entries.length :=
      List.length_filter_lt_length_iff_exists.mpr
        ⟨e, List.mem_of_find?_eq_some hfind, by simp [List.find?_some hfind]⟩
    refine (hs.sublist List.filter_sublist).cons (hlen.trans_le hs.1) fun x hx => ?_
    rw [show (refreshed _ _ _ r e).network = n from hn, show (refreshed _ _ _ r e).chan = c from hc]
    simpa using (List.mem_filter.mp hx).2

theorem TableInv.withNtab {x : Ntab} (h : TableOk x.entries) : TableInv (s.withNtab x) := h

end Ops

/-! ## Every command -/

theorem tableInv_frames : KeptByFrames TableInv :=
  tableInv_reads.keptByFrames (by decide) (fun _ _ => TableOk.nil) (fun _ _ _ _ _ _ => TableOk.nil)
    (fun _ => TableOk.nil)

theorem tableInv_sweep : KeptBySweep TableInv :=
  tableInv_reads.keptBySweep (by decide) (fun _ _ _ hs => tableInv_reads.quiet hs (handOver_touches _ _ _ _))
    (fun _ _ hs => tableInv_reads.quiet hs (calOutcome_touches _ _ _)) TableInv.tableCompletion
    (fun _ hs => tableInv_reads.quiet hs (mapPass_touches _ _))
    (fun hs => tableInv_reads.quiet hs (planningPass_touches _))
    (fun hs => tableInv_reads.quiet hs (enterFault_touches _))

section Commands

variable {s t : State} {now : AT}

theorem TableInv.resetMap (hs : TableInv s) (h : execResetMap now s = .next t) : TableInv t :=
  tableInv_frames.handle (fun {_ u} _ =>
    tableInv_reads.quiet (s := resetTable (resetMapRecords u)) TableOk.nil (resetPlans_touches _)) hs h

theorem TableInv.markFriendly (hs : TableInv s) (h : execMarkFriendly now s = .next t) : TableInv t := by
  refine tableInv_frames.handle (fun {p u} hu => ?_) hs h
  split
  · exact hu
  · refine TableInv.withNtab (TableOk.map hu fun e => ?_)
    unfold marked
    split <;> exact ⟨rfl, rfl⟩

theorem TableInv.setNeighbourAge (hs : TableInv s) (h : execSetNeighbourAge now s = .next t) : TableInv t := by
  refine tableInv_frames.handle (fun {p u} hu => ?_) hs h
  exact hu

theorem TableInv.overheard {r : Radio} {n : BitVec 32} {c raw : Byte} {air : BitVec 32} (hs : TableInv s)
    (h : execOverheard now r n c raw air s = .next t) : TableInv t := by
  refine tableInv_frames.radioEvent (fun hu => tableInv_reads.quiet hu (takeValid_touches _ _)) (fun {u} hu => ?_) hs h
  unfold withChan
  split
  · exact hu.overheardReport
  · exact tableInv_reads.quiet hu (linkError_touches _ _ _)

end Commands

theorem TableInv.exec {c : Instr} {s t : State} (hs : TableInv s) (h : exec c s = .next t) : TableInv t := by
  by_cases hframe : (touched c).all (fun p => decide (p ∉ [Part.ntab])) = true
  · exact tableInv_reads.quiet hs (exec_touches h) hframe
  cases c with
  | fullReset _ => exact tableInv_frames.fullReset_next h
  | startInstant _ _ => exact tableInv_frames.startInstant hs h
  | writeTransaction _ _ => exact tableInv_frames.writeTransaction hs h
  | readTransaction _ _ => exact tableInv_frames.readTransaction hs h
  | resetPartDeadline _ => exact tableInv_frames.resetPartDeadline hs h
  | resetMap _ => exact hs.resetMap h
  | markFriendly _ => exact hs.markFriendly h
  | setNeighbourAge _ => exact hs.setNeighbourAge h
  | ready _ _ => exact tableInv_frames.senseEvent (tableInv_sweep.readyRecord _) hs h
  | close _ _ _ _ => exact tableInv_frames.senseEvent (tableInv_sweep.closeRecord _ _) hs h
  | dwellEnd _ => exact tableInv_sweep.dwellEnd tableInv_frames hs h
  | tuneTimeout _ => exact tableInv_sweep.tuneTimeout tableInv_frames hs h
  | closeWaitExpiry _ => exact tableInv_sweep.closeWaitExpiry tableInv_frames hs h
  | emptyPlanTimer _ =>
    exact tableInv_sweep.emptyPlanTimer tableInv_frames (fun _ _ hu => tableInv_reads.quiet hu (withSsc_touches _ _)) hs h
  | overheard _ _ _ _ _ _ => exact hs.overheard h
  | _ => exact (hframe rfl).elim

/-- Settles O6: the table is changed by a report, a completion, a mark and the resets alone, and each keeps its keys apart;
the frame of every other command leaves it as it was. -/
theorem stepKeepsNeighbourTable : Obligations.StepKeepsNeighbourTable := by
  unfold Obligations.StepKeepsNeighbourTable
  exact fun _ _ hs h => tableInv_frames.step TableInv.exec hs h

end Sys2Proof.Machine
end

section
/-! The operations of the planner and of the radio links (chapters 6 and 8), gone through once for any invariant; with it the
planner's own invariant (R108 to R110) and that of the radios' silence (R165, R177). -/

namespace Sys2Proof.Machine

set_option Elab.async false

/-! ## The operations of the planner -/

/-- R108, R110: the ranges of a planning record. -/
def PlanRecord.ok (x : PlanRecord) : Prop :=
  x.sustain ≤ 15 ∧ 1 ≤ x.announce ∧ x.announce ≤ 15 ∧ ∀ w ∈ x.inFlight, 1 ≤ w.count ∧ w.count ≤ 15

/-- `P` is kept by what planning passes, switch orders and the records of the radios are made of. -/
structure KeptByPlanner (P : State → Prop) : Prop where
  raise : ∀ {s} k d, P s → P (raise k d s)
  sendRadio : ∀ {s} r x, P s → P (sendRadio r x s)
  placeRadio : ∀ {s} r c, P s → P (placeRadio r c s)
  /-- A planning record is written that is in range if the old one is. -/
  record : ∀ {s r} {x : PlanRecord}, ((s.record r).ok → x.ok) → P s → P (s.setRecord r x)
  mode : ∀ {s} m, P s → P (setMode m s)

section Planner

variable {P : State → Prop} {s : State}

theorem KeptByPlanner.switchOrder (hP : KeptByPlanner P) {r : Radio} {cur c : Chan} {n : Nat} {src : Source}
    (hn : (s.record r).ok → 1 ≤ n ∧ n ≤ 15) (hs : P s) : P (switchOrder r cur c n src s) := by
  refine hP.record (fun hx => ?_) (hP.sendRadio r _ hs)
  obtain ⟨_, hlo, hhi, _⟩ := id hx
  refine ⟨Nat.zero_le _, hlo, hhi, fun w hw => ?_⟩
  obtain rfl : _ = w := Option.some.inj hw
  exact hn hx

theorem KeptByPlanner.radarMove (hP : KeptByPlanner P) (r : Radio) (hs : P s) : P (radarMove r s) := by
  unfold Machine.radarMove
  split
  · exact hs
  · split
    · split
      · exact hP.switchOrder (fun _ => by decide) hs
      · exact hP.raise _ _ hs
    · exact hs

theorem KeptByPlanner.moveIfRadar (hP : KeptByPlanner P) (r : Radio) (c : Chan) (hs : P s) : P (moveIfRadar r c s) := by
  unfold Machine.moveIfRadar
  split
  · exact hP.radarMove r hs
  · exact hs

theorem KeptByPlanner.radarAt (hP : KeptByPlanner P) (c : Chan) (r : Radio) (hs : P s) : P (radarAt c r s) := by
  unfold Machine.radarAt
  split
  · exact hP.radarMove r hs
  · exact hs

theorem KeptByPlanner.plannerRadar (hP : KeptByPlanner P) (c : Chan) (hs : P s) : P (plannerRadar c s) :=
  hP.radarAt c .r1 (hP.radarAt c .r0 hs)

/-- R122, R124: the record after a change of channel is in range. -/
theorem changedRecord_ok {x : PlanRecord} (now : Heard) (hx : x.ok) : (changedRecord now x).ok := by
  obtain ⟨_, hlo, hhi, _⟩ := hx
  exact ⟨Nat.zero_le _, hlo, hhi, fun w hw => by cases hw⟩

theorem KeptByPlanner.closeSwitch (hP : KeptByPlanner P) (r : Radio) (w : Switch) (c : Chan) (hs : P s) :
    P (closeSwitch r w c s) := by
  have h3 := hP.raise .switchDone (radioCode r) (hP.record (r := r) (changedRecord_ok (Machine.placeRadio r c s).heard)
    (hP.placeRadio r c hs))
  unfold Machine.closeSwitch
  refine hP.moveIfRadar r c ?_
  split
  · exact h3
  · exact hP.raise _ _ h3

theorem KeptByPlanner.changeOutside (hP : KeptByPlanner P) (r : Radio) (c : Chan) (hs : P s) :
    P (changeOutside r c s) :=
  hP.moveIfRadar r c (hP.record (changedRecord_ok _) (hP.raise _ _ (hP.placeRadio r c hs)))

theorem KeptByPlanner.propose (hP : KeptByPlanner P) (r : Radio) (cur c : Chan) (hs : P s) : P (propose r cur c s) := by
  have h1 (p : Proposal) :
      P (s.setRecord r { s.record r with proposal := some p, sustain := 0, candidate := none }) :=
    hP.record (fun ⟨_, h⟩ => ⟨Nat.zero_le _, h⟩) hs
  unfold Machine.propose
  dsimp only
  split
  · exact hP.raise _ _ (h1 _)
  · exact h1 _

theorem KeptByPlanner.actionTest (hP : KeptByPlanner P) (r : Radio) (cur : Chan) (best : Option Chan) (hs : P s) :
    P (actionTest r cur best s) := by
  unfold Machine.actionTest
  split
  · exact hs
  · split
    · split
      · exact hP.switchOrder (fun ⟨_, hlo, hhi, _⟩ => ⟨hlo, hhi⟩) hs
      · exact hP.propose _ _ _ hs
      · exact hs
    · exact hs

/-- R115: the sustain count stays in its range. -/
theorem sustainTest_le (s : State) (cur : Chan) (best : Option Chan) (x : PlanRecord) :
    (sustainTest s cur best x).1 ≤ 15 := by
  unfold sustainTest
  split
  · exact Nat.zero_le _
  · split
    · split
      · exact Nat.min_le_left _ _
      · exact Nat.le_of_ble_eq_true rfl
    · exact Nat.zero_le _

theorem KeptByPlanner.planningStep (hP : KeptByPlanner P) (r : Radio) (cur : Chan) (hs : P s) :
    P (planningStep r cur s) := by
  unfold Machine.planningStep
  dsimp only
  split
  · exact hP.record id hs
  · unfold sustainAndAct
    refine hP.actionTest r cur _ (hP.record (fun ⟨_, h⟩ => ⟨sustainTest_le _ _ _ _, h⟩) ?_)
    exact hP.record id hs

theorem KeptByPlanner.planRadio (hP : KeptByPlanner P) (r : Radio) (hs : P s) : P (planRadio r s) := by
  unfold Machine.planRadio
  split
  · exact hs
  · split
    · exact hs
    · split
      · exact hP.radarMove r hs
      · exact hP.planningStep r _ hs

theorem KeptByPlanner.planningPass (hP : KeptByPlanner P) (hs : P s) : P (planningPass s) :=
  hP.planRadio .r1 (hP.planRadio .r0 hs)

theorem KeptByPlanner.defaultOrder (hP : KeptByPlanner P) (r : Radio) (hs : P s) : P (defaultOrder r s) := by
  unfold Machine.defaultOrder
  split
  · split
    · exact hP.record id (hP.switchOrder (fun ⟨_, hlo, hhi, _⟩ => ⟨hlo, hhi⟩) hs)
    · exact hs
  · exact hs

theorem KeptByPlanner.silenceAction (hP : KeptByPlanner P) (hs : P s) : P (silenceAction s) := by
  have hr := hP.raise .hostSilent s.cpl.action.code hs
  unfold Machine.silenceAction
  dsimp only
  split
  · exact hr
  · exact hP.mode _ hr
  · exact hP.mode _ (hP.defaultOrder _ (hP.defaultOrder _ hr))

theorem KeptByPlanner.hostSwitch (hP : KeptByPlanner P) (r : Radio) (c : Chan) (count : Nat) (hs : P s) :
    P (hostSwitch r c count s).2 := by
  unfold Machine.hostSwitch
  split
  · exact hs
  · split
    · exact hs
    · split
      · exact hs
      · split
        · exact hs
        · refine hP.record id (hP.switchOrder (fun ⟨_, hlo, hhi, _⟩ => ?_) hs)
          split <;> omega

theorem KeptByPlanner.statusTaken (hP : KeptByPlanner P) (r : Radio) (c : Chan) (noticed : Bool) (hs : P s) :
    P (statusTaken r c noticed s) := by
  unfold Machine.statusTaken
  split
  · unfold becomeKnown
    dsimp only
    split
    · exact hP.placeRadio r c hs
    · exact hP.sendRadio r _ (hP.placeRadio r c hs)
  · split
    · exact hs
    · split
      · exact hP.closeSwitch r _ c hs
      · exact hP.changeOutside r c hs

theorem KeptByPlanner.switchedTaken (hP : KeptByPlanner P) (r : Radio) (c : Chan) (hs : P s) :
    P (switchedTaken r c s) := by
  unfold Machine.switchedTaken
  split
  · exact hs
  · split
    · exact hP.closeSwitch r _ c hs
    · split
      · exact hs
      · exact hP.changeOutside r c hs

end Planner

/-! ## The records of the radios -/

/-- `P` is kept by what a record of a radio does before and beside its own rule. -/
structure KeptByLinks (P : State → Prop) : Prop extends KeptByPlanner P where
  takeValid : ∀ {s} r, P s → P (takeValid r s)
  linkError : ∀ {s} r k, P s → P (linkError r k s)

section Links

variable {P : State → Prop} {s t : State} {now : AT} {r : Radio}

theorem KeptByLinks.withChan (hP : KeptByLinks P) (b : Byte) {body : Chan → State → State}
    (hb : ∀ {c s}, P s → P (body c s)) (hs : P s) : P (withChan r b s body) := by
  unfold Machine.withChan
  split
  · exact hb hs
  · exact hP.linkError _ _ hs

theorem KeptByLinks.status (hP : KeptByLinks P) (hF : KeptByFrames P) {band chan : Byte} (hs : P s)
    (h : execStatus now r band chan s = .next t) : P t := by
  refine hF.radioEvent (hP.takeValid r) (fun {u} hu => hP.withChan _ (fun {c v} hv => ?_) hu) hs h
  split
  · exact hP.statusTaken _ _ _ hv
  · exact hP.linkError _ _ hv

theorem KeptByLinks.switched (hP : KeptByLinks P) (hF : KeptByFrames P) {chan : Byte} (hs : P s)
    (h : execSwitched now r chan s = .next t) : P t :=
  hF.radioEvent (hP.takeValid r) (hP.withChan _ (hP.switchedTaken _ _)) hs h

theorem KeptByLinks.radar (hP : KeptByLinks P) (hF : KeptByFrames P) {chan : Byte}
    (hbar : ∀ {s} c, P s → P (barChannel c s)) (hs : P s) (h : execRadar now r chan s = .next t) : P t :=
  hF.radioEvent (hP.takeValid r) (hP.withChan _ fun hu => hP.plannerRadar _ (hbar _ hu)) hs h

theorem KeptByLinks.linkFramingError (hP : KeptByLinks P) (hF : KeptByFrames P) {type len : Byte} (hs : P s)
    (h : execLinkFramingError now r type len s = .next t) : P t := by
  refine hF.event (fun {u} hu => ?_) hs h
  split
  · exact hu
  · split
    · exact hP.linkError _ _ hu
    · exact hu

theorem KeptByLinks.linkTruncation (hP : KeptByLinks P) (hF : KeptByFrames P) (hs : P s)
    (h : execLinkTruncation now r s = .next t) : P t := by
  refine hF.event (fun {u} hu => ?_) hs h
  split
  · exact hu
  · exact hP.linkError _ _ hu

theorem KeptByPlanner.setChannel (hP : KeptByPlanner P) (hF : KeptByFrames P) (hs : P s)
    (h : execSetChannel now s = .next t) : P t := by
  refine hF.handle (fun {p u} hu => ?_) hs h
  split
  · exact hP.hostSwitch _ _ _ hu
  · exact hu

theorem KeptByPlanner.acceptProposal (hP : KeptByPlanner P) (hF : KeptByFrames P) (hs : P s)
    (h : execAcceptProposal now s = .next t) : P t := by
  refine hF.handle (fun {p u} hu => ?_) hs h
  split
  · exact hu
  · split
    · exact hu
    · exact hP.hostSwitch _ _ _ hu

theorem KeptByPlanner.hostSilenceExpiry (hP : KeptByPlanner P) (hF : KeptByFrames P) (hs : P s)
    (h : execHostSilenceExpiry now s = .next t) : P t := by
  refine hF.event (fun {u} hu => ?_) hs h
  split
  · exact hu
  · split
    · exact hP.silenceAction (hF.host (by rfl) hu)
    · exact hu

theorem KeptByPlanner.switchDeadline (hP : KeptByPlanner P) (hF : KeptByFrames P) (hs : P s)
    (h : execSwitchDeadline now r s = .next t) : P t := by
  refine hF.event (fun {u} hu => ?_) hs h
  split
  · exact hu
  · split
    · refine hP.raise _ _ (hP.record (fun ⟨hsus, hlo, hhi, _⟩ => ?_) hu)
      exact ⟨hsus, hlo, hhi, fun w hw => by cases hw⟩
    · exact hu

end Links

/-! ## The planner's ranges -/

/-- R109: the ranges of the planner's settings. -/
def PlannerSettingsOk (x : Cpl) : Prop :=
  x.hysteresis ≤ 1000 ∧ 1 ≤ x.sustainLimit ∧ x.sustainLimit ≤ 15 ∧ x.minStay ≤ 3600

theorem plannerInv_iff (s : State) : PlannerInv s ↔ PlannerSettingsOk s.cpl ∧ ∀ r, (s.record r).ok := by
  simp only [PlannerInv, PlannerSettingsOk, PlanRecord.ok, and_assoc]

theorem plannerInv_reads : Reads [.cpl] PlannerInv := by
  intro s t h hs
  have hc : s.cpl = t.cpl := h .cpl (by decide)
  simpa only [PlannerInv, State.record, hc] using hs

section PlannerInv

variable {s t : State} {now : AT}

theorem PlannerInv.setRecord {r : Radio} {x : PlanRecord} (hs : PlannerInv s) (hx : x.ok) :
    PlannerInv (s.setRecord r x) := by
  rw [plannerInv_iff] at hs ⊢
  refine ⟨hs.1, fun q => ?_⟩
  by_cases hq : q = r
  · subst hq; rwa [State.setRecord_record]
  · rw [State.setRecord_record_ne _ _ hq]; exact hs.2 q

/-- Writing settings beside the records. -/
theorem PlannerInv.withCpl {x : Cpl} (hx : PlannerSettingsOk x) (hr : ∀ r, (x.records.get r).ok) :
    PlannerInv (s.withCpl x) :=
  (plannerInv_iff _).mpr ⟨hx, hr⟩

theorem PlannerInv.setMode (m : PlanMode) (hs : PlannerInv s) : PlannerInv (setMode m s) := by
  have hs' := (plannerInv_iff s).mp hs
  unfold Machine.setMode
  split
  · exact hs
  · refine PlannerInv.withCpl hs'.1 fun r => ?_
    dsimp only
    split
    · exact hs'.2 r
    · cases r
      · exact hs'.2 .r0
      · exact hs'.2 .r1

theorem plannerInv_planner : KeptByPlanner PlannerInv :=
  { raise := fun _ _ hs => plannerInv_reads.quiet hs (raise_touches _ _ _)
    sendRadio := fun _ _ hs => plannerInv_reads.quiet hs (sendRadio_touches _ _ _)
    placeRadio := fun _ _ hs => plannerInv_reads.quiet hs (placeRadio_touches _ _ _)
    record := fun {s r x} hx hs => hs.setRecord (hx (((plannerInv_iff s).mp hs).2 r))
    mode := PlannerInv.setMode }

theorem PlannerInv.takeValid (r : Radio) (hs : PlannerInv s) : PlannerInv (takeValid r s) := by
  unfold Machine.takeValid
  split
  · refine plannerInv_planner.record id ?_
    exact plannerInv_reads.quiet hs (ps := [.links, .events, .agt])
      (((setLink_touches _ _ _).step (raise_touches _ _ _) (rs := [.links, .events, .agt])).trans
        (leaveSafe_touches _ _).mono)
  · exact plannerInv_reads.quiet hs (setLink_touches _ _ _)

theorem plannerInv_links : KeptByLinks PlannerInv :=
  { plannerInv_planner with
    takeValid := PlannerInv.takeValid
    linkError := fun _ _ hs => plannerInv_reads.quiet hs (linkError_touches _ _ _) }

/-- The state before the first order of a start instant is in the planner's ranges. -/
theorem PlannerInv.start (cause : StartCause) (dom mains : BitVec 2) (id : Byte) (corr : Chan → Int) (out : List Byte)
    (q : List Instr) : PlannerInv (State.start cause dom mains id corr out q) := by
  have hstart : PlanRecord.start.ok := ⟨by decide, by decide, by decide, fun w hw => by cases hw⟩
  have hset : PlannerSettingsOk Cpl.start := ⟨by decide, by decide, by decide, by decide⟩
  refine (plannerInv_iff _).mpr ⟨hset, fun r => ?_⟩
  cases r <;> exact hstart

theorem plannerInv_frames : KeptByFrames PlannerInv :=
  plannerInv_reads.keptByFrames (by decide)
    (fun cause q => plannerInv_reads.quiet (PlannerInv.start cause 0 0 0 (fun _ => 0) [] q)
      (ps := [.phase, .events]) fun p hp => by cases p <;> first | rfl | exact absurd (by decide) hp)
    (fun _ _ _ _ _ _ => PlannerInv.start _ _ _ _ _ _ _) (fun _ => PlannerInv.start _ _ _ _ _ _ _)

theorem plannerInv_sweep : KeptBySweep PlannerInv :=
  plannerInv_reads.keptBySweep (by decide) (fun _ _ _ hs => plannerInv_reads.quiet hs (handOver_touches _ _ _ _))
    (fun _ _ hs => plannerInv_reads.quiet hs (calOutcome_touches _ _ _))
    (fun hs => plannerInv_reads.quiet hs (tableCompletion_touches _))
    (fun _ hs => plannerInv_reads.quiet hs (mapPass_touches _ _)) plannerInv_planner.planningPass
    (fun hs => plannerInv_reads.quiet hs (enterFault_touches _))

theorem PlannerInv.resetMap (hs : PlannerInv s) (h : execResetMap now s = .next t) : PlannerInv t := by
  refine plannerInv_frames.handle (fun {p u} hu => ?_) hs h
  have hu' := (plannerInv_iff u).mp hu
  have hdrop {x : PlanRecord} (hx : x.ok) : (dropPlans x).ok := ⟨Nat.zero_le _, hx.2⟩
  refine PlannerInv.withCpl hu'.1 fun r => ?_
  cases r
  · exact hdrop (hu'.2 .r0)
  · exact hdrop (hu'.2 .r1)

theorem PlannerInv.setPlanner (hs : PlannerInv s) (h : execSetPlanner now s = .next t) : PlannerInv t := by
  refine plannerInv_frames.handle (fun {p u} hu => ?_) hs h
  split
  · next m a _ _ =>
    refine PlannerInv.withCpl ?_ ((plannerInv_iff _).mp (hu.setMode m)).2
    simp only [PlannerSettingsOk, clampNat]
    omega
  · exact hu

theorem PlannerInv.setRadio (hs : PlannerInv s) (h : execSetRadio now s = .next t) : PlannerInv t := by
  refine plannerInv_frames.handle (fun {p u} hu => ?_) hs h
  split
  · refine plannerInv_planner.record (fun ⟨hsus, _, _, hw⟩ => ?_) hu
    exact ⟨hsus, by simp only [clampNat]; omega, by simp only [clampNat]; omega, hw⟩
  · exact hu

theorem PlannerInv.clearHold (hs : PlannerInv s) (h : execClearHold now s = .next t) : PlannerInv t := by
  refine plannerInv_frames.handle (fun {p u} hu => ?_) hs h
  split
  · exact plannerInv_planner.record id hu
  · exact hu

theorem PlannerInv.airRequest {r : Radio} {tag cls : Byte} {l m w : BitVec 16} (hs : PlannerInv s)
    (h : execAirRequest now r tag l m w cls s = .next t) : PlannerInv t :=
  plannerInv_frames.radioEvent (PlannerInv.takeValid r)
    (fun hu => plannerInv_reads.quiet hu (airRequest_touches _ _ _ _ _ _ _)) hs h

theorem PlannerInv.airEnd {r : Radio} {tag : Byte} {n : BitVec 16} (hs : PlannerInv s)
    (h : execAirEnd now r tag n s = .next t) : PlannerInv t :=
  plannerInv_frames.radioEvent (PlannerInv.takeValid r)
    (fun hu => plannerInv_reads.quiet hu (airEnd_touches _ _ _ _)) hs h

theorem PlannerInv.overheard {r : Radio} {n : BitVec 32} {c raw : Byte} {air : BitVec 32} (hs : PlannerInv s)
    (h : execOverheard now r n c raw air s = .next t) : PlannerInv t :=
  plannerInv_frames.radioEvent (PlannerInv.takeValid r)
    (plannerInv_links.withChan _ fun hu => plannerInv_reads.quiet hu (overheardReport_touches _ _ _ _ _ _)) hs h

theorem PlannerInv.exec {c : Instr} (hs : PlannerInv s) (h : exec c s = .next t) : PlannerInv t := by
  by_cases hframe : (touched c).all (fun p => decide (p ∉ [Part.cpl])) = true
  · exact plannerInv_reads.quiet hs (exec_touches h) hframe
  cases c with
  | fullReset _ => exact plannerInv_frames.fullReset_next h
  | startInstant _ _ => exact plannerInv_frames.startInstant hs h
  | writeTransaction _ _ => exact plannerInv_frames.writeTransaction hs h
  | readTransaction _ _ => exact plannerInv_frames.readTransaction hs h
  | resetPartDeadline _ => exact plannerInv_frames.resetPartDeadline hs h
  | hostSilenceExpiry _ => exact plannerInv_planner.hostSilenceExpiry plannerInv_frames hs h
  | resetMap _ => exact hs.resetMap h
  | setPlanner _ => exact hs.setPlanner h
  | setRadio _ => exact hs.setRadio h
  | setChannel _ => exact plannerInv_planner.setChannel plannerInv_frames hs h
  | acceptProposal _ => exact plannerInv_planner.acceptProposal plannerInv_frames hs h
  | clearHold _ => exact hs.clearHold h
  | ready _ _ => exact plannerInv_frames.senseEvent (plannerInv_sweep.readyRecord _) hs h
  | close _ _ _ _ => exact plannerInv_frames.senseEvent (plannerInv_sweep.closeRecord _ _) hs h
  | dwellEnd _ => exact plannerInv_sweep.dwellEnd plannerInv_frames hs h
  | tuneTimeout _ => exact plannerInv_sweep.tuneTimeout plannerInv_frames hs h
  | closeWaitExpiry _ => exact plannerInv_sweep.closeWaitExpiry plannerInv_frames hs h
  | emptyPlanTimer _ =>
    exact plannerInv_sweep.emptyPlanTimer plannerInv_frames
      (fun _ _ hu => plannerInv_reads.quiet hu (withSsc_touches _ _)) hs h
  | status _ _ _ _ => exact plannerInv_links.status plannerInv_frames hs h
  | airRequest _ _ _ _ _ _ _ => exact hs.airRequest h
  | airEnd _ _ _ _ => exact hs.airEnd h
  | overheard _ _ _ _ _ _ => exact hs.overheard h
  | radar _ _ _ =>
    exact plannerInv_links.radar plannerInv_frames (fun _ hu => plannerInv_reads.quiet hu (barChannel_touches _ _)) hs h
  | switched _ _ _ => exact plannerInv_links.switched plannerInv_frames hs h
  | switchDeadline _ _ => exact plannerInv_planner.switchDeadline plannerInv_frames hs h
  | _ => exact (hframe rfl).elim

end PlannerInv

/-- Settles O11: every command that writes the planner clamps its settings, and a switch takes its count from the record's
announce count, from a clamped argument, or is 1. -/
theorem stepKeepsPlannerRanges : Obligations.StepKeepsPlannerRanges := by
  unfold Obligations.StepKeepsPlannerRanges
  exact fun _ _ hs h => plannerInv_frames.step PlannerInv.exec hs h

end Sys2Proof.Machine
end

section
/-! The invariant of the radios' silence (R165, R177): a radio is silent exactly while its gate is SAFE, with its timer
stopped. -/

namespace Sys2Proof.Machine

set_option Elab.async false

/-! ## A link and its gate -/

/-- R165, R177: what a link and its gate say of the radio's silence agrees. -/
def SilenceOk (l : Link) (g : Gate) : Prop := l.silent = g.mode.isSafe ∧ (l.silent = true → l.timer = none)

theorem silenceInv_iff (s : State) : SilenceInv s ↔ ∀ r, SilenceOk (s.link r) (s.gate r) := Iff.rfl

theorem silenceInv_reads : Reads [.links, .agt] SilenceInv := by
  intro s t h hs r
  have hl : s.links = t.links := h .links (by decide)
  have hg : s.agt = t.agt := h .agt (by decide)
  have hr := hs r
  simpa only [State.link, State.gate, hl, hg] using hr

section Ops

variable {s t : State} {r : Radio} {now : AT}

@[simp] theorem State.setLink_gate (s : State) (r q : Radio) (x : Link) : (s.setLink r x).gate q = s.gate q := rfl

@[simp] theorem State.setGate_link (s : State) (r q : Radio) (x : Gate) : (s.setGate r x).link q = s.link q := rfl

@[simp] theorem raise_link (k : EventKind) (d : Nat) (s : State) (q : Radio) : (raise k d s).link q = s.link q := rfl

@[simp] theorem raise_gate (k : EventKind) (d : Nat) (s : State) (q : Radio) : (raise k d s).gate q = s.gate q := rfl

theorem SilenceInv.setLink {x : Link} (hs : SilenceInv s) (hx : SilenceOk x (s.gate r)) : SilenceInv (s.setLink r x) := by
  intro q
  by_cases hq : q = r
  · subst hq; rw [State.setLink_link, State.setLink_gate]; exact hx
  · rw [State.setLink_link_ne _ _ hq]; exact hs q

theorem SilenceInv.setGate {x : Gate} (hs : SilenceInv s) (hx : SilenceOk (s.link r) x) : SilenceInv (s.setGate r x) := by
  intro q
  by_cases hq : q = r
  · subst hq; rw [State.setGate_gate, State.setGate_link]; exact hx
  · rw [State.setGate_gate_ne _ _ hq]; exact hs q

/-- R177: a radio falls silent and its gate enters SAFE. -/
theorem SilenceInv.silenceExpired (r : Radio) (hs : SilenceInv s) : SilenceInv (silenceExpired r s) := by
  have h : SilenceInv (enterSafe r (s.setLink r { s.link r with timer := none, silent := true })) := by
    intro q
    by_cases hq : q = r
    · subst hq
      rw [enterSafe, State.setGate_gate, State.setGate_link, State.setLink_link]
      exact ⟨rfl, fun _ => rfl⟩
    · rw [enterSafe, State.setGate_gate_ne _ _ hq, State.setGate_link, State.setLink_link_ne _ _ hq]
      exact hs q
  exact silenceInv_reads.quiet h (raise_touches _ _ _)

theorem SilenceInv.sendRadio (r : Radio) (x : RadioRecord) (hs : SilenceInv s) : SilenceInv (sendRadio r x s) :=
  hs.setLink (hs r)

theorem SilenceInv.placeRadio (r : Radio) (c : Chan) (hs : SilenceInv s) : SilenceInv (placeRadio r c s) :=
  hs.setLink (hs r)

/-- R178: a radio that returns is not silent, and its gate has left SAFE. -/
theorem SilenceInv.returnFromSilence (r : Radio) (hs : SilenceInv s) : SilenceInv (returnFromSilence r s) := by
  unfold Machine.returnFromSilence
  refine silenceInv_reads.quiet ?_ (holdOnReturn_touches _ _)
  refine SilenceInv.sendRadio r _ fun q => ?_
  by_cases hq : q = r
  · subst hq
    rw [State.setGate_gate, State.setGate_link, raise_link, State.setLink_link]
    exact ⟨rfl, fun h => Bool.noConfusion h⟩
  · rw [State.setGate_gate_ne _ _ hq, State.setGate_link, raise_link, raise_gate, State.setLink_gate,
      State.setLink_link_ne _ _ hq]
    exact hs q

theorem SilenceInv.takeValid (r : Radio) (hs : SilenceInv s) : SilenceInv (takeValid r s) := by
  unfold Machine.takeValid
  split
  · exact hs.returnFromSilence r
  · next hsil =>
    exact hs.setLink ⟨(hs r).1, fun h => absurd h hsil⟩

theorem silenceInv_planner : KeptByPlanner SilenceInv :=
  { raise := fun _ _ hs => silenceInv_reads.quiet hs (raise_touches _ _ _)
    sendRadio := SilenceInv.sendRadio
    placeRadio := SilenceInv.placeRadio
    record := fun _ hs => silenceInv_reads.quiet hs (setRecord_touches _ _ _)
    mode := fun _ hs => silenceInv_reads.quiet hs (setMode_touches _ _) }

theorem silenceInv_links : KeptByLinks SilenceInv :=
  { silenceInv_planner with
    takeValid := SilenceInv.takeValid
    linkError := fun r _ hs => silenceInv_planner.raise _ _ (hs.setLink (hs r)) }

theorem SilenceInv.start (cause : StartCause) (dom mains : BitVec 2) (id : Byte) (corr : Chan → Int) (out : List Byte)
    (q : List Instr) : SilenceInv (State.start cause dom mains id corr out q) := by
  intro r
  cases r <;> exact ⟨rfl, fun h => Bool.noConfusion h⟩

theorem silenceInv_frames : KeptByFrames SilenceInv :=
  silenceInv_reads.keptByFrames (by decide)
    (fun cause q => silenceInv_reads.quiet (SilenceInv.start cause 0 0 0 (fun _ => 0) [] q)
      (ps := [.phase, .events]) fun p hp => by cases p <;> first | rfl | exact absurd (by decide) hp)
    (fun _ _ _ _ _ _ => SilenceInv.start _ _ _ _ _ _ _) (fun _ => SilenceInv.start _ _ _ _ _ _ _)

theorem silenceInv_sweep : KeptBySweep SilenceInv :=
  silenceInv_reads.keptBySweep (by decide) (fun _ _ _ hs => silenceInv_reads.quiet hs (handOver_touches _ _ _ _))
    (fun _ _ hs => silenceInv_reads.quiet hs (calOutcome_touches _ _ _))
    (fun hs => silenceInv_reads.quiet hs (tableCompletion_touches _))
    (fun _ hs => silenceInv_reads.quiet hs (mapPass_touches _ _)) silenceInv_planner.planningPass
    (fun hs => silenceInv_reads.quiet hs (enterFault_touches _))

/-! ## The gates' modes -/

/-- Every gate of `t` has the mode it has in `s`, and the links are those of `s`. -/
def SameModes (s t : State) : Prop := t.links = s.links ∧ ∀ r, (t.gate r).mode = (s.gate r).mode

theorem SameModes.trans {u : State} (h : SameModes s t) (k : SameModes t u) : SameModes s u :=
  ⟨k.1.trans h.1, fun r => (k.2 r).trans (h.2 r)⟩

theorem SameModes.setGate {x : Gate} (hx : x.mode = (s.gate r).mode) : SameModes s (s.setGate r x) := by
  refine ⟨rfl, fun q => ?_⟩
  by_cases hq : q = r
  · subst hq; rwa [State.setGate_gate]
  · rw [State.setGate_gate_ne _ _ hq]

theorem SameModes.setRecent (s : State) (b : Band) (x : List GrantEntry) : SameModes s (s.setRecent b x) := by
  cases b <;> exact ⟨rfl, fun _ => rfl⟩

theorem SilenceInv.sameModes (hs : SilenceInv s) (h : SameModes s t) : SilenceInv t := by
  intro r
  have hl : t.link r = s.link r := by rw [State.link, h.1, State.link]
  rw [hl, h.2 r]
  exact hs r

theorem unlinkRemoved_sameModes (x : GrantEntry) (s : State) : SameModes s (unlinkRemoved x s) := by
  unfold unlinkRemoved
  split
  · exact SameModes.setGate rfl
  · exact ⟨rfl, fun _ => rfl⟩

theorem unlinkAll_sameModes (xs : List GrantEntry) (s : State) : SameModes s (xs.foldr unlinkRemoved s) := by
  induction xs with
  | nil => exact ⟨rfl, fun _ => rfl⟩
  | cons x xs ih => exact ih.trans (unlinkRemoved_sameModes _ _)

theorem makeGrantEntry_sameModes (b : Band) (e : GrantEntry) (s : State) : SameModes s (makeGrantEntry b e s) := by
  unfold makeGrantEntry
  split
  · exact SameModes.setRecent _ _ _
  · split
    · exact (SameModes.setRecent _ _ _).trans (unlinkRemoved_sameModes _ _)
    · exact SameModes.setRecent _ _ _

theorem closeGrant_sameModes (r : Radio) (stop : Option AT) (s : State) : SameModes s (closeGrant r stop s) :=
  SameModes.trans (t := s.withAgt { s.agt with
    recent24 := s.agt.recent24.map (closeEntry r stop), recent5 := s.agt.recent5.map (closeEntry r stop) })
    ⟨rfl, fun _ => rfl⟩ (SameModes.setGate rfl)

theorem SilenceInv.computeRequest {c : Chan} {q : Request} (hs : SilenceInv s) : SilenceInv (computeRequest r c q s) := by
  have hissue (w n : Nat) (short : Bool) : SilenceInv (issue r (bandOf c) q w n short s) :=
    SilenceInv.sendRadio r _ ((hs.sameModes (makeGrantEntry_sameModes _ _ _)).sameModes (SameModes.setGate rfl))
  unfold Machine.computeRequest
  split
  · exact hissue _ _ _
  · exact hissue _ _ _
  · exact hs.sendRadio r _
  · exact hs.sendRadio r _

theorem SilenceInv.airRequest {tag cls : Byte} {l m w : Nat} (hs : SilenceInv s) :
    SilenceInv (airRequest r tag l m w cls s) := by
  unfold Machine.airRequest
  split
  · exact hs.sendRadio r _
  · split
    · exact hs.sendRadio r _
    · exact hs.sendRadio r _
    · exact hs.sendRadio r _
    · split
      · exact hs.sendRadio r _
      · exact hs.computeRequest

theorem SilenceInv.airEnd {tag : Byte} {n : Nat} (hs : SilenceInv s) : SilenceInv (airEnd r tag n s) := by
  unfold Machine.airEnd
  split
  · exact silenceInv_planner.raise _ _ hs
  · split
    · exact hs.sameModes (closeGrant_sameModes _ _ _)
    · exact silenceInv_planner.raise _ _ hs

/-- R156, R157: SET GATE leaves a gate in SAFE if it is. -/
theorem SilenceInv.setGateMode (m : HostMode) (hs : SilenceInv s) : SilenceInv (setGateMode r m s) := by
  unfold Machine.setGateMode
  split
  · next hsafe => exact hs.setGate ⟨by rw [(hs r).1, hsafe]; rfl, (hs r).2⟩
  · next hhost =>
    split
    · exact hs
    · exact SilenceInv.sendRadio r _ (hs.setGate ⟨by rw [(hs r).1, hhost]; rfl, (hs r).2⟩)

/-- R179: a stopped timer stays stopped under a new limit. -/
theorem retimed_of_stopped {x : Link} (h : x.timer = none) (ms : Nat) : retimed x ms = none := by
  unfold retimed
  rw [h]

theorem SilenceInv.setSilenceLimit (ms : Nat) (hs : SilenceInv s) : SilenceInv (setSilenceLimit r ms s) := by
  have h1 : SilenceInv (s.setLink r { s.link r with limitMs := ms, timer := retimed (s.link r) ms }) :=
    hs.setLink ⟨(hs r).1, fun h => retimed_of_stopped ((hs r).2 h) ms⟩
  unfold Machine.setSilenceLimit
  dsimp only
  split
  · split
    · exact h1.silenceExpired r
    · exact h1
  · exact h1

end Ops

/-! ## Every command -/

section Commands

variable {s t : State} {r : Radio} {now : AT}

theorem SilenceInv.setGateCommand (hs : SilenceInv s) (h : execSetGate now s = .next t) : SilenceInv t := by
  refine silenceInv_frames.handle (fun {p u} hu => ?_) hs h
  split
  · exact hu.setGateMode _
  · exact hu

theorem SilenceInv.setExclusion (hs : SilenceInv s) (h : execSetExclusion now s = .next t) : SilenceInv t := by
  refine silenceInv_frames.handle (fun {p u} hu => ?_) hs h
  split
  · exact hu.sameModes ⟨rfl, fun _ => rfl⟩
  · exact hu

theorem SilenceInv.setLatency (hs : SilenceInv s) (h : execSetLatency now s = .next t) : SilenceInv t := by
  refine silenceInv_frames.handle (fun {p u} hu => ?_) hs h
  split
  · exact hu.sameModes (SameModes.setGate rfl)
  · exact hu

theorem SilenceInv.setSilence (hs : SilenceInv s) (h : execSetSilence now s = .next t) : SilenceInv t := by
  refine silenceInv_frames.handle (fun {p u} hu => ?_) hs h
  split
  · exact hu.setSilenceLimit _
  · exact hu

theorem SilenceInv.overheard {n : BitVec 32} {c raw : Byte} {air : BitVec 32} (hs : SilenceInv s)
    (h : execOverheard now r n c raw air s = .next t) : SilenceInv t :=
  silenceInv_frames.radioEvent (SilenceInv.takeValid r)
    (silenceInv_links.withChan _ fun hu => silenceInv_reads.quiet hu (overheardReport_touches _ _ _ _ _ _)) hs h

theorem SilenceInv.linkResyncClear (hs : SilenceInv s) (h : execLinkResyncClear now r s = .next t) : SilenceInv t := by
  refine silenceInv_frames.event (fun {u} hu => ?_) hs h
  exact hu.setLink (hu r)

theorem SilenceInv.silenceTimerExpiry (hs : SilenceInv s) (h : execSilenceTimerExpiry now r s = .next t) :
    SilenceInv t := by
  refine silenceInv_frames.event (fun {u} hu => ?_) hs h
  split
  · exact hu
  · split
    · exact hu.silenceExpired r
    · exact hu

theorem SilenceInv.grantExpiry (hs : SilenceInv s) (h : execGrantExpiry now r s = .next t) : SilenceInv t := by
  refine silenceInv_frames.event (fun {u} hu => ?_) hs h
  split
  · exact hu
  · split
    · exact silenceInv_planner.raise _ _ (hu.sameModes (closeGrant_sameModes _ _ _))
    · exact hu

theorem SilenceInv.grantEntryAgeOut {b : Band} (hs : SilenceInv s) (h : execGrantEntryAgeOut now b s = .next t) :
    SilenceInv t :=
  silenceInv_frames.event (fun hu => (hu.sameModes (SameModes.setRecent _ _ _)).sameModes (unlinkAll_sameModes _ _)) hs h

theorem SilenceInv.exec {c : Instr} (hs : SilenceInv s) (h : exec c s = .next t) : SilenceInv t := by
  by_cases hframe : (touched c).all (fun p => decide (p ∉ [Part.links, .agt])) = true
  · exact silenceInv_reads.quiet hs (exec_touches h) hframe
  cases c with
  | fullReset _ => exact silenceInv_frames.fullReset_next h
  | startInstant _ _ => exact silenceInv_frames.startInstant hs h
  | writeTransaction _ _ => exact silenceInv_frames.writeTransaction hs h
  | readTransaction _ _ => exact silenceInv_frames.readTransaction hs h
  | resetPartDeadline _ => exact silenceInv_frames.resetPartDeadline hs h
  | hostSilenceExpiry _ => exact silenceInv_planner.hostSilenceExpiry silenceInv_frames hs h
  | setChannel _ => exact silenceInv_planner.setChannel silenceInv_frames hs h
  | acceptProposal _ => exact silenceInv_planner.acceptProposal silenceInv_frames hs h
  | setGate _ => exact hs.setGateCommand h
  | setExclusion _ => exact hs.setExclusion h
  | setLatency _ => exact hs.setLatency h
  | setSilence _ => exact hs.setSilence h
  | ready _ _ => exact silenceInv_frames.senseEvent (silenceInv_sweep.readyRecord _) hs h
  | close _ _ _ _ => exact silenceInv_frames.senseEvent (silenceInv_sweep.closeRecord _ _) hs h
  | dwellEnd _ => exact silenceInv_sweep.dwellEnd silenceInv_frames hs h
  | tuneTimeout _ => exact silenceInv_sweep.tuneTimeout silenceInv_frames hs h
  | closeWaitExpiry _ => exact silenceInv_sweep.closeWaitExpiry silenceInv_frames hs h
  | emptyPlanTimer _ =>
    exact silenceInv_sweep.emptyPlanTimer silenceInv_frames
      (fun _ _ hu => silenceInv_reads.quiet hu (withSsc_touches _ _)) hs h
  | status _ _ _ _ => exact silenceInv_links.status silenceInv_frames hs h
  | airRequest _ r _ _ _ _ _ =>
    exact silenceInv_frames.radioEvent (SilenceInv.takeValid r) SilenceInv.airRequest hs h
  | airEnd _ r _ _ => exact silenceInv_frames.radioEvent (SilenceInv.takeValid r) SilenceInv.airEnd hs h
  | overheard _ _ _ _ _ _ => exact hs.overheard h
  | radar _ _ _ =>
    exact silenceInv_links.radar silenceInv_frames (fun _ hu => silenceInv_reads.quiet hu (barChannel_touches _ _)) hs h
  | switched _ _ _ => exact silenceInv_links.switched silenceInv_frames hs h
  | linkFramingError _ _ _ _ => exact silenceInv_links.linkFramingError silenceInv_frames hs h
  | linkTruncation _ _ => exact silenceInv_links.linkTruncation silenceInv_frames hs h
  | linkResyncClear _ _ => exact hs.linkResyncClear h
  | silenceTimerExpiry _ _ => exact hs.silenceTimerExpiry h
  | grantExpiry _ _ => exact hs.grantExpiry h
  | grantEntryAgeOut _ _ => exact hs.grantEntryAgeOut h
  | _ => exact (hframe rfl).elim

end Commands

/-- Settles O5: the expiry sets the flag with SAFE and stops the timer, the first valid record undoes both, and SET GATE
keeps a gate in SAFE. -/
theorem stepKeepsSilenceWithSafe : Obligations.StepKeepsSilenceWithSafe := by
  unfold Obligations.StepKeepsSilenceWithSafe
  exact fun _ _ hs h => silenceInv_frames.step SilenceInv.exec hs h

end Sys2Proof.Machine
end

section
/-! The invariant of the airtime gates (R134, R136): recent-grant lists of at most 16 entries, grants of 32 to 8000 µs. -/

namespace Sys2Proof.Machine

set_option Elab.async false

/-! ## Slots and lists -/

/-- R134: a grant's length is in range. -/
def Grant.ok (g : Grant) : Prop := 32 ≤ g.length ∧ g.length ≤ 8000

theorem gateInv_reads : Reads [.agt] GateInv := by
  intro s t h hs
  have ha : s.agt = t.agt := h .agt (by decide)
  have hrec (b : Band) : t.recent b = s.recent b := by cases b <;> simp only [State.recent, ha]
  refine ⟨fun b => (hrec b).symm ▸ hs.1 b, fun r => ?_⟩
  have hgate : t.gate r = s.gate r := by simp only [State.gate, ha]
  rw [hgate]
  exact hs.2 r

section Ops

variable {s t : State} {r : Radio} {b : Band} {now : AT}

@[simp] theorem State.setGate_recent (s : State) (r : Radio) (x : Gate) (b : Band) :
    (s.setGate r x).recent b = s.recent b := by
  cases b <;> rfl

@[simp] theorem State.setRecent_gate (s : State) (b : Band) (x : List GrantEntry) (r : Radio) :
    (s.setRecent b x).gate r = s.gate r := by
  cases b <;> rfl

theorem State.setRecent_recent_ne (s : State) {b c : Band} (x : List GrantEntry) (h : c ≠ b) :
    (s.setRecent b x).recent c = s.recent c := by
  cases b <;> cases c <;> first | rfl | exact absurd rfl h

theorem GateInv.setGate {x : Gate} (hs : GateInv s) (hx : ∀ g ∈ x.slot, g.ok) : GateInv (s.setGate r x) := by
  refine ⟨fun b => by rw [State.setGate_recent]; exact hs.1 b, fun q => ?_⟩
  by_cases hq : q = r
  · subst hq; rw [State.setGate_gate]; exact hx
  · rw [State.setGate_gate_ne _ _ hq]; exact hs.2 q

theorem GateInv.setRecent {x : List GrantEntry} (hs : GateInv s) (hx : x.length ≤ 16) : GateInv (s.setRecent b x) := by
  refine ⟨fun c => ?_, fun q => by rw [State.setRecent_gate]; exact hs.2 q⟩
  by_cases hc : c = b
  · subst hc; rw [State.setRecent_recent]; exact hx
  · rw [State.setRecent_recent_ne _ _ hc]; exact hs.1 c

theorem GateInv.unlinkRemoved (x : GrantEntry) (hs : GateInv s) : GateInv (unlinkRemoved x s) := by
  unfold Machine.unlinkRemoved
  split
  · refine hs.setGate fun g hg => ?_
    obtain ⟨g', hg', rfl⟩ := Option.map_eq_some_iff.mp (show (Option.map _ _) = some g from hg)
    exact hs.2 _ g' hg'
  · exact hs

theorem GateInv.unlinkAll (xs : List GrantEntry) (hs : GateInv s) : GateInv (xs.foldr Machine.unlinkRemoved s) := by
  induction xs with
  | nil => exact hs
  | cons x xs ih => exact ih.unlinkRemoved x

theorem placeEntry_length (e : GrantEntry) (xs : List GrantEntry) : (placeEntry e xs).length = xs.length + 1 := by
  induction xs with
  | nil => rfl
  | cons x xs ih =>
    unfold placeEntry
    split
    · rfl
    · rw [List.length_cons, ih, List.length_cons]

/-- R136: a full list loses its first entry before another is made. -/
theorem GateInv.makeGrantEntry (b : Band) (e : GrantEntry) (hs : GateInv s) : GateInv (makeGrantEntry b e s) := by
  have h16 := hs.1 b
  unfold Machine.makeGrantEntry
  split
  · exact hs.setRecent (by simp)
  · next x rest hlist =>
    split
    · refine GateInv.unlinkRemoved x (hs.setRecent ?_)
      rw [placeEntry_length]
      simpa [hlist] using h16
    · next hroom =>
      refine hs.setRecent ?_
      rw [placeEntry_length]
      exact Nat.not_le.mp hroom

theorem GateInv.issue {q : Request} {w n : Nat} {short : Bool} (hn : 32 ≤ n ∧ n ≤ 8000) (hs : GateInv s) :
    GateInv (issue r b q w n short s) := by
  refine gateInv_reads.quiet (GateInv.setGate (hs.makeGrantEntry b _) fun g hg => ?_) (sendRadio_touches _ _ _)
  obtain rfl : _ = g := Option.some.inj hg
  exact hn

theorem freeRun_le {blocks : List (Int × Int)} {length n : Nat} {c : Int} (h : freeRun blocks length c = some n) :
    n ≤ length := by
  unfold freeRun at h
  split at h
  · cases h
  · split at h
    · exact (Option.some.inj h).ge
    · exact (Option.some.inj h).ge.trans (Nat.min_le_left _ _)

/-- R144: a short grant lasts the minimum at least and the request's length at most. -/
theorem scanB_length {blocks : List (Int × Int)} {length minLength : Nat} {cs : List Int} {x : Int × Nat}
    (h : scanB blocks length minLength cs = some x) : minLength ≤ x.2 ∧ x.2 ≤ length := by
  fun_induction scanB blocks length minLength cs with
  | case1 => cases h
  | case2 c rest n hfree hmin =>
    obtain rfl := Option.some.inj h
    exact ⟨hmin, freeRun_le hfree⟩
  | case3 c rest n hfree hmin ih => exact ih h
  | case4 c rest hfree ih => exact ih h

theorem noRoom_ne_grant (bound : Option Nat) (length : Nat) (sA : Int) :
    (∀ w n, noRoom bound length sA ≠ .grant w n) ∧ ∀ w n, noRoom bound length sA ≠ .short w n := by
  unfold noRoom
  split
  · split <;> simp
  · simp

/-- R143, R144: what a GRANT or SHORT lasts. -/
theorem answerOf_length {blocks : List (Int × Int)} {bound : Option Nat} {q : Request} {w n : Nat} :
    (answerOf blocks bound q = .grant w n → n = q.length)
    ∧ (answerOf blocks bound q = .short w n → q.minLength ≠ 0 ∧ q.minLength ≤ n ∧ n ≤ q.length) := by
  unfold answerOf
  dsimp only
  split
  · simp only [Answer.grant.injEq, reduceCtorEq, false_imp_iff, and_true]
    exact fun h => h.2.symm
  · split
    · exact ⟨fun h => absurd h ((noRoom_ne_grant _ _ _).1 _ _), fun h => absurd h ((noRoom_ne_grant _ _ _).2 _ _)⟩
    · next hmin =>
      split
      · next x hx =>
        simp only [Answer.short.injEq, reduceCtorEq, false_imp_iff, true_and]
        rintro ⟨_, rfl⟩
        exact ⟨hmin, scanB_length hx⟩
      · exact ⟨fun h => absurd h ((noRoom_ne_grant _ _ _).1 _ _), fun h => absurd h ((noRoom_ne_grant _ _ _).2 _ _)⟩

/-- R138: a request's lengths after they are brought into range. -/
def Request.ok (q : Request) : Prop := 32 ≤ q.length ∧ q.length ≤ 8000 ∧ (q.minLength ≠ 0 → 32 ≤ q.minLength)

theorem clampRequest_ok (t0 : AT) (tag : Byte) (len minLen maxWait : Nat) (cls : Byte) :
    (clampRequest t0 tag len minLen maxWait cls).ok := by
  simp only [Request.ok, clampRequest, clampNat]
  refine ⟨by omega, by omega, ?_⟩
  split
  · exact fun h => absurd rfl h
  · omega

theorem GateInv.computeRequest {c : Chan} {q : Request} (hq : q.ok) (hs : GateInv s) :
    GateInv (computeRequest r c q s) := by
  obtain ⟨hlo, hhi, hmin⟩ := hq
  unfold Machine.computeRequest
  split
  · next w n h =>
    obtain rfl := answerOf_length.1 h
    exact hs.issue ⟨hlo, hhi⟩
  · next w n h =>
    obtain ⟨h0, hn, hnq⟩ := answerOf_length.2 h
    exact hs.issue ⟨(hmin h0).trans hn, hnq.trans hhi⟩
  · exact gateInv_reads.quiet hs (sendRadio_touches _ _ _)
  · exact gateInv_reads.quiet hs (sendRadio_touches _ _ _)

theorem GateInv.airRequest {tag cls : Byte} {l m w : Nat} (hs : GateInv s) : GateInv (airRequest r tag l m w cls s) := by
  have hsend (x : RadioRecord) : GateInv (sendRadio r x s) := gateInv_reads.quiet hs (sendRadio_touches _ _ _)
  unfold Machine.airRequest
  split
  · exact hsend _
  · split
    · exact hsend _
    · exact hsend _
    · exact hsend _
    · split
      · exact hsend _
      · exact hs.computeRequest (clampRequest_ok _ _ _ _ _ _)

theorem GateInv.closeGrant (r : Radio) (stop : Option AT) (hs : GateInv s) : GateInv (closeGrant r stop s) := by
  have h1 : GateInv (s.withAgt { s.agt with
      recent24 := s.agt.recent24.map (closeEntry r stop), recent5 := s.agt.recent5.map (closeEntry r stop) }) := by
    refine ⟨fun b => ?_, hs.2⟩
    have h16 := hs.1 b
    cases b <;> simpa [State.recent] using h16
  exact h1.setGate fun g hg => by cases hg

theorem GateInv.airEnd {tag : Byte} {n : Nat} (hs : GateInv s) : GateInv (airEnd r tag n s) := by
  unfold Machine.airEnd
  split
  · exact gateInv_reads.quiet hs (raise_touches _ _ _)
  · split
    · exact hs.closeGrant _ _
    · exact gateInv_reads.quiet hs (raise_touches _ _ _)

/-- A gate written with its slot kept. -/
theorem GateInv.setGate_slot {x : Gate} (hs : GateInv s) (hx : x.slot = (s.gate r).slot) : GateInv (s.setGate r x) :=
  hs.setGate (hx ▸ hs.2 r)

theorem GateInv.setGateMode (m : HostMode) (hs : GateInv s) : GateInv (setGateMode r m s) := by
  unfold Machine.setGateMode
  split
  · exact hs.setGate_slot rfl
  · split
    · exact hs
    · exact gateInv_reads.quiet (hs.setGate_slot (r := r) (x := { s.gate r with mode := .host m }) rfl)
        (sendRadio_touches _ _ _)

theorem GateInv.silenceExpired (r : Radio) (hs : GateInv s) : GateInv (silenceExpired r s) := by
  have h1 (x : Link) : GateInv (s.setLink r x) := gateInv_reads.quiet hs (setLink_touches _ _ _)
  have h2 (x : Link) : GateInv (enterSafe r (s.setLink r x)) := (h1 x).setGate_slot rfl
  exact gateInv_reads.quiet (h2 _) (raise_touches _ _ _)

theorem GateInv.takeValid (r : Radio) (hs : GateInv s) : GateInv (takeValid r s) := by
  have h1 (x : Link) : GateInv (s.setLink r x) := gateInv_reads.quiet hs (setLink_touches _ _ _)
  unfold Machine.takeValid
  split
  · unfold returnFromSilence
    have h2 := gateInv_reads.quiet (h1 { noteValid s.now (s.link r) with silent := false })
      (raise_touches .radioBack (radioCode r) _)
    have h3 (m : GateState) := GateInv.setGate_slot (r := r) h2 (x := { Machine.State.gate _ r with mode := m }) rfl
    exact gateInv_reads.quiet (gateInv_reads.quiet (h3 _) (sendRadio_touches _ _ _)) (holdOnReturn_touches _ _)
  · exact h1 _

theorem GateInv.setSilenceLimit (ms : Nat) (hs : GateInv s) : GateInv (setSilenceLimit r ms s) := by
  have h1 (x : Link) : GateInv (s.setLink r x) := gateInv_reads.quiet hs (setLink_touches _ _ _)
  unfold Machine.setSilenceLimit
  dsimp only
  split
  · split
    · exact (h1 _).silenceExpired r
    · exact h1 _
  · exact h1 _

theorem gateInv_links : KeptByLinks GateInv :=
  { raise := fun _ _ hs => gateInv_reads.quiet hs (raise_touches _ _ _)
    sendRadio := fun _ _ hs => gateInv_reads.quiet hs (sendRadio_touches _ _ _)
    placeRadio := fun _ _ hs => gateInv_reads.quiet hs (placeRadio_touches _ _ _)
    record := fun _ hs => gateInv_reads.quiet hs (setRecord_touches _ _ _)
    mode := fun _ hs => gateInv_reads.quiet hs (setMode_touches _ _)
    takeValid := GateInv.takeValid
    linkError := fun _ _ hs => gateInv_reads.quiet hs (linkError_touches _ _ _) }

theorem GateInv.start (cause : StartCause) (dom mains : BitVec 2) (id : Byte) (corr : Chan → Int) (out : List Byte)
    (q : List Instr) : GateInv (State.start cause dom mains id corr out q) := by
  refine ⟨fun b => ?_, fun r g hg => ?_⟩
  · cases b <;> exact Nat.zero_le _
  · cases r <;> cases hg

theorem gateInv_frames : KeptByFrames GateInv :=
  gateInv_reads.keptByFrames (by decide)
    (fun cause q => gateInv_reads.quiet (GateInv.start cause 0 0 0 (fun _ => 0) [] q)
      (ps := [.phase, .events]) fun p hp => by cases p <;> first | rfl | exact absurd (by decide) hp)
    (fun _ _ _ _ _ _ => GateInv.start _ _ _ _ _ _ _) (fun _ => GateInv.start _ _ _ _ _ _ _)

/-! ## Every command -/

theorem GateInv.setGateCommand (hs : GateInv s) (h : execSetGate now s = .next t) : GateInv t := by
  refine gateInv_frames.handle (fun {p u} hu => ?_) hs h
  split
  · exact hu.setGateMode _
  · exact hu

theorem GateInv.setExclusion (hs : GateInv s) (h : execSetExclusion now s = .next t) : GateInv t := by
  refine gateInv_frames.handle (fun {p u} hu => ?_) hs h
  split
  · refine ⟨fun b => ?_, hu.2⟩
    have h16 := hu.1 b
    cases b <;> exact h16
  · exact hu

theorem GateInv.setLatency (hs : GateInv s) (h : execSetLatency now s = .next t) : GateInv t := by
  refine gateInv_frames.handle (fun {p u} hu => ?_) hs h
  split
  · exact hu.setGate_slot rfl
  · exact hu

theorem GateInv.setSilence (hs : GateInv s) (h : execSetSilence now s = .next t) : GateInv t := by
  refine gateInv_frames.handle (fun {p u} hu => ?_) hs h
  split
  · exact hu.setSilenceLimit _
  · exact hu

theorem GateInv.overheard {n : BitVec 32} {c raw : Byte} {air : BitVec 32} (hs : GateInv s)
    (h : execOverheard now r n c raw air s = .next t) : GateInv t :=
  gateInv_frames.radioEvent (GateInv.takeValid r)
    (gateInv_links.withChan _ fun hu => gateInv_reads.quiet hu (overheardReport_touches _ _ _ _ _ _)) hs h

theorem GateInv.silenceTimerExpiry (hs : GateInv s) (h : execSilenceTimerExpiry now r s = .next t) : GateInv t := by
  refine gateInv_frames.event (fun {u} hu => ?_) hs h
  split
  · exact hu
  · split
    · exact hu.silenceExpired r
    · exact hu

theorem GateInv.grantExpiry (hs : GateInv s) (h : execGrantExpiry now r s = .next t) : GateInv t := by
  refine gateInv_frames.event (fun {u} hu => ?_) hs h
  split
  · exact hu
  · split
    · exact gateInv_reads.quiet (hu.closeGrant _ _) (raise_touches _ _ _)
    · exact hu

theorem GateInv.grantEntryAgeOut (hs : GateInv s) (h : execGrantEntryAgeOut now b s = .next t) : GateInv t :=
  gateInv_frames.event
    (fun hu => GateInv.unlinkAll _ (hu.setRecent ((List.length_filter_le _ _).trans (hu.1 b)))) hs h

theorem GateInv.exec {c : Instr} (hs : GateInv s) (h : exec c s = .next t) : GateInv t := by
  by_cases hframe : (touched c).all (fun p => decide (p ∉ [Part.agt])) = true
  · exact gateInv_reads.quiet hs (exec_touches h) hframe
  cases c with
  | fullReset _ => exact gateInv_frames.fullReset_next h
  | startInstant _ _ => exact gateInv_frames.startInstant hs h
  | writeTransaction _ _ => exact gateInv_frames.writeTransaction hs h
  | readTransaction _ _ => exact gateInv_frames.readTransaction hs h
  | resetPartDeadline _ => exact gateInv_frames.resetPartDeadline hs h
  | setGate _ => exact hs.setGateCommand h
  | setExclusion _ => exact hs.setExclusion h
  | setLatency _ => exact hs.setLatency h
  | setSilence _ => exact hs.setSilence h
  | status _ _ _ _ => exact gateInv_links.status gateInv_frames hs h
  | airRequest _ r _ _ _ _ _ => exact gateInv_frames.radioEvent (GateInv.takeValid r) GateInv.airRequest hs h
  | airEnd _ r _ _ => exact gateInv_frames.radioEvent (GateInv.takeValid r) GateInv.airEnd hs h
  | overheard _ _ _ _ _ _ => exact hs.overheard h
  | radar _ _ _ =>
    exact gateInv_links.radar gateInv_frames (fun _ hu => gateInv_reads.quiet hu (barChannel_touches _ _)) hs h
  | switched _ _ _ => exact gateInv_links.switched gateInv_frames hs h
  | silenceTimerExpiry _ _ => exact hs.silenceTimerExpiry h
  | grantExpiry _ _ => exact hs.grantExpiry h
  | grantEntryAgeOut _ _ => exact hs.grantEntryAgeOut h
  | _ => exact (hframe rfl).elim

end Ops

/-- Settles O7: a list makes room before it takes an entry, and the scans give a request its clamped length, or at least its
clamped minimum. -/
theorem stepKeepsGrantRanges : Obligations.StepKeepsGrantRanges := by
  unfold Obligations.StepKeepsGrantRanges
  exact fun _ _ hs h => gateInv_frames.step GateInv.exec hs h

end Sys2Proof.Machine
end

section
/-! The invariant of the occupancy map (R73, R77 to R79, R88): every channel record and every setting in its range. -/

namespace Sys2Proof.Machine

set_option Elab.async false

/-! ## Numbers that stay in range -/

/-- A value moved part of the way toward another stays below what bounds both. -/
theorem moveToward_le {x f m : Nat} (d : Nat) (hx : x ≤ m) (hf : f ≤ m) : moveToward x f d ≤ m := by
  have hstep : truncDiv ((f : Int) - x) d ≤ max 0 ((f : Int) - x) := by
    rcases le_total 0 ((f : Int) - x) with h | h
    · exact (Int.tdiv_le_self d h).trans (le_max_right _ _)
    · have hneg : 0 ≤ Int.tdiv (-((f : Int) - x)) d := Int.tdiv_nonneg (by omega) (Int.natCast_nonneg d)
      rw [Int.neg_tdiv] at hneg
      refine le_max_of_le_left ?_
      rw [truncDiv]
      omega
  unfold moveToward
  omega

theorem corrected_le (raw : Byte) (correction : Int) : corrected raw correction ≤ 240 := by
  simp only [corrected, clampInt]
  omega

theorem busyStep_le {busy : Nat} (divisor observed sum : Nat) (h : busy ≤ 1000) :
    busyStep divisor observed sum busy ≤ 1000 :=
  moveToward_le _ h (Nat.min_le_left _ _)

theorem floorStep_le {f floor : Nat} (hf : f ≤ 240) (h : floor ≤ 240) : floorStep f floor ≤ 240 := by
  unfold floorStep
  split
  · exact hf
  · exact moveToward_le _ h hf

/-! ## Channel records -/

section Record

variable {x : ChannelRecord}

/-- R74, R75: a dwell report keeps a record's ranges. -/
theorem reported_ok {divisor observed : Nat} {now : AT} {sums : Busy} {f : Option Nat} (hx : x.ok)
    (hf : ∀ n ∈ f, n ≤ 240) : (reported divisor now observed sums f x).ok := by
  obtain ⟨hfloor, hframe, hoven, hother, hrest⟩ := hx
  have hnew : (match f with
      | some n => floorStep n x.floor
      | none => x.floor) ≤ 240 := by
    cases f with
    | none => exact hfloor
    | some n => exact floorStep_le (hf n rfl) hfloor
  unfold reported
  dsimp only
  split
  · exact ⟨hnew, busyStep_le _ _ _ hframe, busyStep_le _ _ _ hoven, busyStep_le _ _ _ hother, hrest⟩
  · exact ⟨hnew, hframe, hoven, hother, hrest⟩

/-- R41: a measured correction is in range. -/
theorem measuredCorrection_range {m : Option Byte} {c : Int} (h : measuredCorrection m = some c) : -16 ≤ c ∧ c ≤ 15 := by
  unfold measuredCorrection at h
  split at h
  · cases h
  · dsimp only at h
    split at h
    · next hc => exact Option.some.inj h ▸ hc
    · cases h

/-- A record with another correction that is in range. -/
theorem ChannelRecord.ok.withCorrection {c : Int} {b : Bool} (hx : x.ok) (hc : -16 ≤ c ∧ c ≤ 15) :
    ({ x with correction := c, bad := b } : ChannelRecord).ok := by
  obtain ⟨hfloor, hframe, hoven, hother, _, _, hrest⟩ := hx
  exact ⟨hfloor, hframe, hoven, hother, hc.1, hc.2, hrest⟩

theorem outcomeOn_ok {correction : Option Int} (hx : x.ok) (hc : ∀ c ∈ correction, -16 ≤ c ∧ c ≤ 15) :
    (outcomeOn correction x).ok := by
  cases correction with
  | none => exact hx
  | some c => exact hx.withCorrection (hc c rfl)

theorem start_record_ok (permitted : Bool) {c : Int} (hc : -16 ≤ c ∧ c ≤ 15) : (ChannelRecord.start permitted c).ok :=
  ⟨show 40 ≤ 240 by decide, Nat.zero_le _, Nat.zero_le _, Nat.zero_le _, hc.1, hc.2, Nat.zero_le _, Nat.zero_le _,
    Nat.zero_le _⟩

end Record

/-! ## The map -/

/-- R77 to R79, R88: the map's settings and the bar clock are in range. -/
def MapSettingsOk (x : Omap) : Prop :=
  x.divisor ∈ [2, 4, 8, 16] ∧ x.margin ≤ 40 ∧ x.weight ≤ 200 ∧ x.pressureThreshold ≤ 240 ∧ 60 ≤ x.barTime
  ∧ x.barTime ≤ 3600 ∧ x.barClock ≤ Config.barClockMax

theorem mapInv_iff (s : State) : MapInv s ↔ (∀ c, (s.chan c).ok) ∧ MapSettingsOk s.omap := Iff.rfl

theorem mapInv_reads : Reads [.omap] MapInv := by
  intro s t h hs
  have ho : s.omap = t.omap := h .omap (by decide)
  simpa only [MapInv, State.chan, ho] using hs

section Ops

variable {s t : State} {now : AT}

theorem MapInv.setChan {c : Chan} {x : ChannelRecord} (hs : MapInv s) (hx : x.ok) : MapInv (s.setChan c x) := by
  refine ⟨fun d => ?_, hs.2⟩
  rw [State.setChan_chan_eq]
  split
  · exact hx
  · exact hs.1 d

/-- A table of records in range beside settings in range. -/
theorem MapInv.withTable {f : Chan → ChannelRecord} {x : Omap} (hf : ∀ c, (f c).ok) (hx : MapSettingsOk x) :
    MapInv (s.withOmap { x with channels := chanTable f }) := by
  refine ⟨fun c => ?_, hx⟩
  rw [show (s.withOmap { x with channels := chanTable f }).chan c = f c from chanTable_get f c]
  exact hf c

theorem MapInv.closeUnder (c : Chan) (rep : Option Report) (hs : MapInv s) : MapInv (closeUnder c rep s) := by
  have h1 (b : Bool) : MapInv (s.setChan c { s.chan c with underRange := b }) := hs.setChan (hs.1 c)
  unfold Machine.closeUnder
  split
  · exact hs
  · dsimp only
    split
    · exact mapInv_reads.quiet (h1 _) (raise_touches _ _ _)
    · exact h1 _

theorem MapInv.handOver (d : Dwell) (ready : AT) (rep : Option Report) (hs : MapInv s) :
    MapInv (handOver d ready rep s) := by
  have hfloor : ∀ n ∈ floorReportOf s d.chan rep, n ≤ 240 := by
    intro n hn
    obtain ⟨p, _, rfl⟩ := Option.map_eq_some_iff.mp (show Option.map _ rep = some n from hn)
    exact corrected_le _ _
  unfold Machine.handOver
  dsimp only
  refine mapInv_reads.quiet (MapInv.closeUnder _ _ ?_) (dwellSpan_touches _ _ _ _ _ _)
  have h1 (x : Bcl) : MapInv (s.withBcl x) := mapInv_reads.quiet hs (withBcl_touches _ _)
  have h2 (x : Bcl) (o : Nat) (b : Busy) :
      MapInv (dwellReport d.chan o b (floorReportOf s d.chan rep) (s.withBcl x)) :=
    (h1 x).setChan (reported_ok ((h1 x).1 d.chan) hfloor)
  exact (h2 _ _ _).setChan ((h2 _ _ _).1 d.chan)

theorem MapInv.endRun (status : CalStatus) (hs : MapInv s) : MapInv (endRun status s) :=
  mapInv_reads.quiet hs (endRun_touches _ _)

theorem MapInv.calOutcome (d : Dwell) (m : Option Byte) (hs : MapInv s) : MapInv (calOutcome d m s) := by
  unfold Machine.calOutcome
  dsimp only
  split
  · have h1 : MapInv (s.withOmap { s.omap with
        channels := chanTable fun x =>
          if outcomeApplies s.bcl.cal d.chan x then outcomeOn (measuredCorrection m) (s.chan x) else s.chan x }) := by
      refine MapInv.withTable (fun c => ?_) hs.2
      split
      · exact outcomeOn_ok (hs.1 c) fun _ => measuredCorrection_range
      · exact hs.1 c
    have h2 (x : Bcl) := mapInv_reads.quiet h1 (withBcl_touches _ x)
    split
    · exact (h2 _).endRun _
    · exact h2 _
  · exact hs

theorem MapInv.mapPass (n : BitVec 16) (hs : MapInv s) : MapInv (mapPass n s) := by
  refine MapInv.withTable (x := { s.omap with passRound := n }) (fun c => ?_) hs.2
  obtain ⟨hfloor, hframe, hoven, hother, hlo, hhi, _⟩ := hs.1 c
  exact ⟨hfloor, hframe, hoven, hother, hlo, hhi, Nat.min_le_left _ _, Nat.min_le_left _ _, Nat.min_le_left _ _⟩

theorem MapInv.resetMapRecords (hs : MapInv s) : MapInv (resetMapRecords s) := by
  refine MapInv.withTable (fun c => ?_) hs.2
  obtain ⟨_, _, _, _, hlo, hhi, _⟩ := hs.1 c
  exact ⟨show 40 ≤ 240 by decide, Nat.zero_le _, Nat.zero_le _, Nat.zero_le _, hlo, hhi, Nat.zero_le _, Nat.zero_le _,
    Nat.zero_le _⟩

theorem MapInv.barChannel (c : Chan) (hs : MapInv s) : MapInv (barChannel c s) :=
  have h1 (u : Option Nat) : MapInv (s.setChan c { s.chan c with barredUntil := u }) := hs.setChan (hs.1 c)
  mapInv_reads.quiet (h1 _) (raise_touches _ _ _)

theorem MapInv.markOver (d : Dwell) (hs : MapInv s) : MapInv (markOver d s) := by
  have h1 (f : Tally → Tally) : MapInv (onTally d.id f s) := mapInv_reads.quiet hs (onTally_touches _ _ _)
  have h2 (f : Tally → Tally) := (h1 f).setChan (c := d.chan)
    (x := { (onTally d.id f s).chan d.chan with overRange := true }) ((h1 f).1 d.chan)
  unfold Machine.markOver
  dsimp only
  split
  · exact h2 _
  · exact mapInv_reads.quiet (h2 _) (raise_touches _ _ _)

theorem MapInv.takeBurst {d : Dwell} {ready : AT} {off dur : Nat} {raw : Byte} {a b : Bool} (hs : MapInv s) :
    MapInv (takeBurst d ready off dur raw a b s) := by
  unfold Machine.takeBurst
  split
  · exact hs
  · dsimp only
    split
    · exact mapInv_reads.quiet hs (onTally_touches _ _ _)
    · have h1 : MapInv (if saturatedRaw raw then Machine.markOver d s else s) := by
        split
        · exact hs.markOver d
        · exact hs
      split
      · exact mapInv_reads.quiet h1 (onTally_touches _ _ _)
      · exact mapInv_reads.quiet h1 (bandTests_touches _ _ _)

theorem MapInv.burstRecord {id : Byte} {off dur : Nat} {raw : Byte} {a b : Bool} (hs : MapInv s) :
    MapInv (burstRecord id off dur raw a b s) := by
  unfold Machine.burstRecord
  split
  · exact hs
  · split
    · exact hs
    · exact mapInv_reads.quiet hs.takeBurst (wakeIfParked_touches _)

theorem startRun_touches (mode : CalMode) (mask : BitVec 40) (s : State) :
    touchesOnly [.ssc, .bcl, .events] s (startRun mode mask s) := by
  unfold startRun
  dsimp only
  split
  · exact (withBcl_touches _ _).step (faultCalibration_touches _)
  · exact ((withBcl_touches _ _).step (withSsc_touches _ _)).trans (wakeIfParked_touches _).mono

theorem MapInv.revertRun (mask : BitVec 40) (hs : MapInv s) : MapInv (revertRun mask s) := by
  have h1 : MapInv (s.withOmap { s.omap with
      channels := chanTable fun c => if inMask mask c then { s.chan c with correction := 0 } else s.chan c }) := by
    refine MapInv.withTable (fun c => ?_) hs.2
    split
    · exact (hs.1 c).withCorrection (by decide)
    · exact hs.1 c
  exact (mapInv_reads.quiet h1 (withBcl_touches _ _)).endRun _

theorem MapInv.calibrateWith (p : List Byte) (hs : MapInv s) : MapInv (calibrateWith p s).2 := by
  unfold Machine.calibrateWith
  split
  · exact hs
  · split
    · exact hs
    · split
      · split
        · exact hs.revertRun _
        · exact mapInv_reads.quiet hs (startRun_touches _ _ _)
        · exact mapInv_reads.quiet hs (startRun_touches _ _ _)
      · exact hs

theorem mapInv_links : KeptByLinks MapInv :=
  { raise := fun _ _ hs => mapInv_reads.quiet hs (raise_touches _ _ _)
    sendRadio := fun _ _ hs => mapInv_reads.quiet hs (sendRadio_touches _ _ _)
    placeRadio := fun _ _ hs => mapInv_reads.quiet hs (placeRadio_touches _ _ _)
    record := fun _ hs => mapInv_reads.quiet hs (setRecord_touches _ _ _)
    mode := fun _ hs => mapInv_reads.quiet hs (setMode_touches _ _)
    takeValid := fun _ hs => mapInv_reads.quiet hs (takeValid_touches _ _)
    linkError := fun _ _ hs => mapInv_reads.quiet hs (linkError_touches _ _ _) }

theorem mapInv_sweep : KeptBySweep MapInv :=
  mapInv_reads.keptBySweep (by decide) MapInv.handOver MapInv.calOutcome
    (fun hs => mapInv_reads.quiet hs (tableCompletion_touches _)) MapInv.mapPass
    (fun hs => mapInv_reads.quiet hs (planningPass_touches _)) (fun hs => mapInv_reads.quiet hs (enterFault_touches _))

theorem MapInv.start (cause : StartCause) (dom mains : BitVec 2) (id : Byte) {corr : Chan → Int} (out : List Byte)
    (q : List Instr) (hc : ∀ c, -16 ≤ corr c ∧ corr c ≤ 15) : MapInv (State.start cause dom mains id corr out q) := by
  have hset : MapSettingsOk (Omap.start dom corr) := by simp [MapSettingsOk, Omap.start, Config.barClockMax]
  refine ⟨fun c => ?_, hset⟩
  rw [show (State.start cause dom mains id corr out q).chan c = ChannelRecord.start (permittedIn dom c) (corr c) from
    chanTable_get _ c]
  exact start_record_ok _ (hc c)

theorem mapInv_frames : KeptByFrames MapInv :=
  mapInv_reads.keptByFrames (by decide)
    (fun cause q => mapInv_reads.quiet (MapInv.start cause 0 0 0 [] q (corr := fun _ => 0) fun _ => by decide)
      (ps := [.phase, .events]) fun p hp => by cases p <;> first | rfl | exact absurd (by decide) hp)
    (fun _ _ _ _ _ _ => MapInv.start _ _ _ _ _ _ fun _ => by decide)
    (fun {s} hs => MapInv.start _ _ _ _ _ _ fun c => ⟨(hs.1 c).2.2.2.2.1, (hs.1 c).2.2.2.2.2.1⟩)

/-! ## Every command -/

theorem MapInv.resetMap (hs : MapInv s) (h : execResetMap now s = .next t) : MapInv t :=
  mapInv_frames.handle (fun hu => mapInv_reads.quiet (MapInv.resetMapRecords hu) (ps := [.ntab, .cpl])
    ((withNtab_touches _ _).step (resetPlans_touches _))) hs h

theorem MapInv.calibrate (hs : MapInv s) (h : execCalibrate now s = .next t) : MapInv t :=
  mapInv_frames.handle (MapInv.calibrateWith _) hs h

theorem MapInv.calibrateRevert (hs : MapInv s) (h : execCalibrateRevert now s = .next t) : MapInv t := by
  unfold execCalibrateRevert at h
  split at h
  · exact mapInv_frames.handle (MapInv.calibrateWith _) hs h
  · exact mapInv_frames.event (fun hu => hu) hs h

theorem MapInv.writeCorrection (hs : MapInv s) (h : execWriteCorrection now s = .next t) : MapInv t := by
  refine mapInv_frames.handle (fun {p u} hu => ?_) hs h
  split
  · exact hu
  · split
    · exact hu
    · refine hu.setChan ((hu.1 _).withCorrection ?_)
      simp only [clampInt]
      omega

theorem MapInv.setAveraging (hs : MapInv s) (h : execSetAveraging now s = .next t) : MapInv t := by
  refine mapInv_frames.handle (fun {p u} hu => ?_) hs h
  dsimp only
  split
  · next hd =>
    obtain ⟨_, hrest⟩ := hu.2
    have hmem : arg1 p 0 ∈ [2, 4, 8, 16] := by simpa [or_assoc] using hd
    exact ⟨hu.1, hmem, hrest⟩
  · exact hu

theorem MapInv.setMargin (hs : MapInv s) (h : execSetMargin now s = .next t) : MapInv t := by
  refine mapInv_frames.handle (fun {p u} hu => ?_) hs h
  obtain ⟨hdiv, _, hrest⟩ := hu.2
  exact ⟨hu.1, hdiv, Nat.min_le_left _ _, hrest⟩

theorem MapInv.setWeights (hs : MapInv s) (h : execSetWeights now s = .next t) : MapInv t := by
  refine mapInv_frames.handle (fun {p u} hu => ?_) hs h
  obtain ⟨hdiv, hmargin, _, _, hrest⟩ := hu.2
  exact ⟨hu.1, hdiv, hmargin, Nat.min_le_left _ _, Nat.min_le_left _ _, hrest⟩

theorem MapInv.setBarTime (hs : MapInv s) (h : execSetBarTime now s = .next t) : MapInv t := by
  refine mapInv_frames.handle (fun {p u} hu => ?_) hs h
  obtain ⟨hdiv, hmargin, hweight, hthr, _, _, hclock⟩ := hu.2
  exact ⟨hu.1, hdiv, hmargin, hweight, hthr, le_min (by decide) (le_max_left _ _), Nat.min_le_left _ _, hclock⟩

theorem MapInv.setHeldOut (f : Bool) (p : List Byte) (hs : MapInv s) : MapInv (setHeldOut f p s).2 := by
  unfold Machine.setHeldOut
  split
  · next c _ => exact hs.setChan (hs.1 c)
  · exact hs

theorem MapInv.barChannelCommand (hs : MapInv s) (h : execBarChannel now s = .next t) : MapInv t :=
  mapInv_frames.handle (MapInv.setHeldOut true _) hs h

theorem MapInv.unbar (hs : MapInv s) (h : execUnbar now s = .next t) : MapInv t :=
  mapInv_frames.handle (MapInv.setHeldOut false _) hs h

theorem MapInv.burst {id raw : Byte} {off : BitVec 24} {dur : BitVec 16} {a b : Bool} (hs : MapInv s)
    (h : execBurst now id off dur raw a b s = .next t) : MapInv t :=
  mapInv_frames.senseEvent MapInv.burstRecord hs h

theorem MapInv.barClockTick (hs : MapInv s) (h : execBarClockTick now s = .next t) : MapInv t := by
  refine mapInv_frames.event (fun {u} hu => ?_) hs h
  dsimp only
  split
  · obtain ⟨hdiv, hmargin, hweight, hthr, hlo, hhi, _⟩ := hu.2
    exact ⟨hu.1, hdiv, hmargin, hweight, hthr, hlo, hhi, Nat.min_le_left _ _⟩
  · exact hu

theorem MapInv.radarBarExpiry {c : Chan} (hs : MapInv s) (h : execRadarBarExpiry now c s = .next t) : MapInv t := by
  refine mapInv_frames.event (fun {u} hu => ?_) hs h
  split
  · exact hu
  · split
    · exact hu.setChan (hu.1 c)
    · exact hu

theorem MapInv.exec {c : Instr} (hs : MapInv s) (h : exec c s = .next t) : MapInv t := by
  by_cases hframe : (touched c).all (fun p => decide (p ∉ [Part.omap])) = true
  · exact mapInv_reads.quiet hs (exec_touches h) hframe
  cases c with
  | fullReset _ => exact mapInv_frames.fullReset_next h
  | startInstant _ _ => exact mapInv_frames.startInstant hs h
  | writeTransaction _ _ => exact mapInv_frames.writeTransaction hs h
  | readTransaction _ _ => exact mapInv_frames.readTransaction hs h
  | resetPartDeadline _ => exact mapInv_frames.resetPartDeadline hs h
  | resetMap _ => exact hs.resetMap h
  | calibrate _ => exact hs.calibrate h
  | calibrateRevert _ => exact hs.calibrateRevert h
  | writeCorrection _ => exact hs.writeCorrection h
  | setAveraging _ => exact hs.setAveraging h
  | setMargin _ => exact hs.setMargin h
  | setWeights _ => exact hs.setWeights h
  | setBarTime _ => exact hs.setBarTime h
  | barChannel _ => exact hs.barChannelCommand h
  | unbar _ => exact hs.unbar h
  | ready _ _ => exact mapInv_frames.senseEvent (mapInv_sweep.readyRecord _) hs h
  | burst _ _ _ _ _ _ _ => exact hs.burst h
  | close _ _ _ _ => exact mapInv_frames.senseEvent (mapInv_sweep.closeRecord _ _) hs h
  | dwellEnd _ => exact mapInv_sweep.dwellEnd mapInv_frames hs h
  | tuneTimeout _ => exact mapInv_sweep.tuneTimeout mapInv_frames hs h
  | closeWaitExpiry _ => exact mapInv_sweep.closeWaitExpiry mapInv_frames hs h
  | emptyPlanTimer _ =>
    exact mapInv_sweep.emptyPlanTimer mapInv_frames (fun _ _ hu => mapInv_reads.quiet hu (withSsc_touches _ _)) hs h
  | barClockTick _ => exact hs.barClockTick h
  | radarBarExpiry _ _ => exact hs.radarBarExpiry h
  | radar _ _ _ => exact mapInv_links.radar mapInv_frames MapInv.barChannel hs h
  | _ => exact (hframe rfl).elim

end Ops

/-- Settles O8: the values a record takes are moved between bounded ones, capped or clamped, and so are the settings. -/
theorem stepKeepsMapRanges : Obligations.StepKeepsMapRanges := by
  unfold Obligations.StepKeepsMapRanges
  exact fun _ _ hs h => mapInv_frames.step MapInv.exec hs h

end Sys2Proof.Machine
end

section
/-! The invariant of the oven trackers (R47, R48, R51): every tracker and every tracking setting in its range. -/

namespace Sys2Proof.Machine

set_option Elab.async false

/-! ## The steps of the hit update -/

/-- R51: at most two sets of hit windows, of at most 8 starts each. -/
def HitSetsOk (sets : List HitSet) : Prop := sets.length ≤ 2 ∧ ∀ h ∈ sets, h.starts.length ≤ 8

section Steps

variable {tr : Tracker} {o : Oven} {set : TrackSettings}

theorem addStart_length {tolerance : Nat} {w : AT} {starts : List AT} (h : starts.length ≤ 8) :
    (addStart tolerance w starts).length ≤ 8 := by
  unfold addStart
  split
  · exact h
  · next hroom =>
    simp only [Bool.or_eq_true, decide_eq_true_eq, not_or, Nat.not_le] at hroom
    rw [List.length_append, List.length_singleton]
    omega

theorem recordHit_ok {tolerance : Nat} {id : Byte} {w : AT} {sets : List HitSet} (h : HitSetsOk sets) :
    HitSetsOk (recordHit tolerance id w sets) := by
  obtain ⟨htwo, hstarts⟩ := h
  unfold recordHit
  split
  · refine ⟨by rwa [List.length_map], fun x hx => ?_⟩
    obtain ⟨y, hy, rfl⟩ := List.mem_map.mp hx
    split
    · exact addStart_length (hstarts y hy)
    · exact hstarts y hy
  · have hkept : (if 2 ≤ sets.length then sets.tail else sets).length ≤ 1
        ∧ ∀ x ∈ (if 2 ≤ sets.length then sets.tail else sets), x ∈ sets := by
      split
      · exact ⟨by rw [List.length_tail]; omega, fun x hx => List.mem_of_mem_tail hx⟩
      · exact ⟨by omega, fun x hx => hx⟩
    refine ⟨by rw [List.length_append, List.length_singleton]; omega, fun x hx => ?_⟩
    obtain hx | hx := List.mem_append.mp hx
    · exact hstarts x (hkept.2 x hx)
    · rw [List.mem_singleton.mp hx, List.length_singleton]
      decide

theorem dropHits_ok {id : Byte} {sets : List HitSet} (h : HitSetsOk sets) : HitSetsOk (dropHits id sets) :=
  ⟨(List.length_filter_le _ _).trans h.1, fun x hx => h.2 x (List.mem_filter.mp hx).1⟩

/-- R47: a period within its candidate's band. -/
def InBand (m : Mains) (period : Nat) : Prop := (periodBand m).1 ≤ period ∧ period ≤ (periodBand m).2

theorem clampNat_inBand (m : Mains) (x : Nat) : InBand m (clampNat (periodBand m).1 (periodBand m).2 x) := by
  cases m <;> exact ⟨le_min (by decide) (le_max_left _ _), Nat.min_le_left _ _⟩

theorem nominalPeriod_inBand (m : Mains) : InBand m (nominalPeriod m) := by
  cases m <;> exact ⟨by decide, by decide⟩

theorem hitPeriod_inBand (s : AT) (h : InBand o.candidate o.period) : InBand o.candidate (hitPeriod o s) := by
  unfold hitPeriod
  dsimp only
  split
  · split
    · exact clampNat_inBand _ _
    · exact h
  · exact h

theorem hitWidth_range {width duration : Nat} {cut : Bool} (h : 3000 ≤ width ∧ width ≤ 12000) :
    3000 ≤ hitWidth width duration cut ∧ hitWidth width duration cut ≤ 12000 := by
  unfold hitWidth
  split
  · exact h
  · exact ⟨le_min (by decide) (le_max_left _ _), Nat.min_le_left _ _⟩

theorem guardFor_range {mode : GuardMode} {g jitter : Nat} (h : 100 ≤ g ∧ g ≤ 2000) :
    100 ≤ guardFor mode g jitter ∧ guardFor mode g jitter ≤ 2000 := by
  cases mode
  · exact ⟨le_min (by decide) (le_max_left _ _), Nat.min_le_left _ _⟩
  · exact h

/-- R47: the ranges of a tracker. -/
def Tracker.ok (x : Tracker) : Prop := 100 ≤ x.fixedGuard ∧ x.fixedGuard ≤ 2000 ∧ ∀ o ∈ x.oven, o.ok

theorem Oven.ok.withPhase (h : o.ok) (p : OvenPhase) : ({ o with phase := p } : Oven).ok := h

/-- R54 to R57: a hit on a 2.4 GHz channel keeps a tracker's ranges. -/
theorem hitFields_ok {f : Offer} (htr : tr.ok) (ho : o.ok) (hf : f.chan.val ≤ 12) : (hitFields set tr f o).ok := by
  obtain ⟨hplo, hphi, hwlo, hwhi, _, _, _, _, _, hspan, hhi, hsets⟩ := ho
  obtain ⟨hp1, hp2⟩ := hitPeriod_inBand f.start ⟨hplo, hphi⟩
  obtain ⟨hw1, hw2⟩ := hitWidth_range (duration := f.duration) (cut := f.cutStart || f.cutEnd) ⟨hwlo, hwhi⟩
  obtain ⟨hg1, hg2⟩ := guardFor_range (mode := tr.mode) (jitter := hitJitter o.jitter (phaseError o f.start))
    ⟨htr.1, htr.2.1⟩
  have hspan' : (hitFields set tr f o).lo ≤ (hitFields set tr f o).hi ∧ (hitFields set tr f o).hi.val ≤ 12 := by
    simp only [hitFields, Fin.le_def] at hspan ⊢
    split <;> split <;> omega
  exact ⟨hp1, hp2, hw1, hw2, hg1, hg2, Nat.min_le_left _ _, Nat.min_le_left _ _, Nat.zero_le _, hspan'.1, hspan'.2,
    recordHit_ok hsets⟩

/-- R52: a seeded oven is in range. -/
theorem seedOven_ok {s : State} {f : Offer} (htr : tr.ok) (hf : f.chan.val ≤ 12) : (seedOven s tr f).ok := by
  obtain ⟨hp1, hp2⟩ := nominalPeriod_inBand (firstCandidate s.host.mains)
  obtain ⟨hg1, hg2⟩ := guardFor_range (mode := tr.mode) (jitter := 0) ⟨htr.1, htr.2.1⟩
  have hw : 3000 ≤ (seedOven s tr f).width ∧ (seedOven s tr f).width ≤ 12000 := by
    simp only [seedOven, clampNat]
    split <;> omega
  refine ⟨hp1, hp2, hw.1, hw.2, hg1, hg2, Nat.zero_le _, by simp [seedOven], Nat.zero_le _, le_refl f.chan, hf,
    by simp [seedOven], fun h hh => ?_⟩
  rw [List.mem_singleton.mp hh, List.length_singleton]
  decide

end Steps

/-! ## The trackers -/

theorem trackerInv_iff (s : State) : TrackerInv s ↔ s.otk.settings.ok ∧ ∀ t, (s.tracker t).ok := Iff.rfl

theorem trackerInv_reads : Reads [.otk] TrackerInv := by
  intro s t h hs
  have ho : s.otk = t.otk := h .otk (by decide)
  simpa only [TrackerInv, State.tracker, ho] using hs

section Ops

variable {s t : State} {now : AT} {k : TrackerId} {o : Oven}

theorem TrackerInv.setTracker {x : Tracker} (hs : TrackerInv s) (hx : x.ok) : TrackerInv (s.setTracker k x) := by
  refine ⟨hs.1, fun j => ?_⟩
  by_cases hj : j = k
  · subst hj; rw [State.setTracker_tracker]; exact hx
  · rw [State.setTracker_tracker_ne _ _ hj]; exact hs.2 j

/-- The oven of a tracker is replaced. -/
theorem TrackerInv.setOven {x : Option Oven} (hs : TrackerInv s) (hx : ∀ o ∈ x, o.ok) :
    TrackerInv (s.setTracker k { s.tracker k with oven := x }) :=
  hs.setTracker ⟨(hs.2 k).1, (hs.2 k).2.1, hx⟩

theorem TrackerInv.setSomeOven (hs : TrackerInv s) (ho : o.ok) :
    TrackerInv (s.setTracker k { s.tracker k with oven := some o }) :=
  hs.setOven fun _ h => Option.some.inj h ▸ ho

theorem TrackerInv.oven (hs : TrackerInv s) (ho : (s.tracker k).oven = some o) : o.ok := (hs.2 k).2.2 o ho

theorem TrackerInv.raise (e : EventKind) (d : Nat) (hs : TrackerInv s) : TrackerInv (raise e d s) :=
  trackerInv_reads.quiet hs (raise_touches _ _ _)

theorem TrackerInv.takeHit {f : Offer} (hf : f.chan.val ≤ 12) (hs : TrackerInv s) : TrackerInv (takeHit f k s) := by
  unfold Machine.takeHit
  split
  · exact hs
  · next o ho =>
    have h1 (p : OvenPhase) : TrackerInv (s.setTracker k { s.tracker k with
        oven := some { hitFields s.otk.settings (s.tracker k) f o with phase := p } }) :=
      hs.setSomeOven ((hitFields_ok (hs.2 k) (hs.oven ho) hf).withPhase p)
    dsimp only
    split
    · exact (h1 _).raise _ _
    · exact h1 _

theorem TrackerInv.seed {f : Offer} (hf : f.chan.val ≤ 12) (hs : TrackerInv s) : TrackerInv (seed f s) := by
  unfold Machine.seed
  split
  · next j _ => exact hs.setSomeOven (seedOven_ok (hs.2 j) hf)
  · exact hs.raise _ _

theorem TrackerInv.toIdle (hs : TrackerInv s) : TrackerInv (toIdle k s) :=
  trackerInv_reads.quiet (TrackerInv.setOven (k := k) (x := none) hs fun _ h => by cases h) (withSsc_touches _ _)

theorem TrackerInv.searchTimedOut (ho : o.ok) (hs : TrackerInv s) : TrackerInv (searchTimedOut k o s) := by
  unfold Machine.searchTimedOut
  split
  · obtain ⟨_, _, hw1, hw2, hg1, hg2, hj, _, hrest⟩ := ho
    obtain ⟨hp1, hp2⟩ := nominalPeriod_inBand (otherCandidate o.candidate)
    exact hs.setSomeOven ⟨hp1, hp2, hw1, hw2, hg1, hg2, hj, show 1 ≤ 15 by decide, hrest⟩
  · exact hs.toIdle.raise _ _

theorem TrackerInv.holdoverExpired (hs : TrackerInv s) : TrackerInv (holdoverExpired k s) := hs.toIdle.raise _ _

theorem TrackerInv.enterHoldover {d : Nat} (ho : o.ok) (hs : TrackerInv s) : TrackerInv (enterHoldover k o d s) :=
  TrackerInv.raise _ _ (hs.setSomeOven (ho.withPhase _))

theorem TrackerInv.examineTracker {id : Byte} {c : Chan} {ready : AT} {n : Nat} {cov : List (Int × Int)}
    (hs : TrackerInv s) : TrackerInv (examineTracker id c ready n cov s k) := by
  unfold Machine.examineTracker
  split
  · exact hs
  · next o ho =>
    have hok (m : Nat) (hm : m ≤ 15) : ({ o with hitSets := dropHits id o.hitSets, misses := m } : Oven).ok := by
      obtain ⟨h1, h2, h3, h4, h5, h6, h7, h8, _, h10, h11, hsets⟩ := hs.oven ho
      exact ⟨h1, h2, h3, h4, h5, h6, h7, h8, hm, h10, h11, dropHits_ok hsets⟩
    have hmiss : o.misses ≤ 15 := (hs.oven ho).2.2.2.2.2.2.2.2.1
    dsimp only
    split
    · split
      · exact hs.enterHoldover (hok _ (Nat.min_le_left _ _))
      · exact hs.setSomeOven (hok _ (Nat.min_le_left _ _))
    · exact hs.setSomeOven (hok _ hmiss)

theorem TrackerInv.dwellSpan {id : Byte} {c : Chan} {ready : AT} {n : Nat} {cov : List (Int × Int)}
    (hs : TrackerInv s) : TrackerInv (dwellSpan id c ready n cov s) :=
  hs.examineTracker.examineTracker.examineTracker

theorem TrackerInv.faultTracker (hs : TrackerInv s) : TrackerInv (faultTracker s k) := by
  unfold Machine.faultTracker
  split
  · exact hs
  · next o ho =>
    split
    · exact hs.enterHoldover (hs.oven ho)
    · exact hs

theorem TrackerInv.faultTrackers (hs : TrackerInv s) : TrackerInv (faultTrackers s) :=
  hs.faultTracker.faultTracker.faultTracker

theorem TrackerInv.expirePassed (hs : TrackerInv s) : TrackerInv (expirePassed s k) := by
  unfold Machine.expirePassed
  split
  · exact hs
  · split
    · split
      · exact hs.holdoverExpired
      · exact hs
    · exact hs
    · exact hs

theorem le_12_of_bandOf {c : Chan} (h : bandOf c = .ghz24) : c.val ≤ 12 := by
  unfold bandOf at h
  split at h
  · assumption
  · cases h

theorem TrackerInv.bandTests {f : Offer} {us : Nat} (hs : TrackerInv s) : TrackerInv (bandTests f us s) := by
  have htally {u : State} (hu : TrackerInv u) (g : Tally → Tally) : TrackerInv (onTally f.id g u) :=
    trackerInv_reads.quiet hu (onTally_touches _ _ _)
  unfold Machine.bandTests
  split
  · exact htally hs _
  · next hband =>
    have hf := le_12_of_bandOf hband
    split
    · exact htally hs _
    · split
      · unfold offerBurst
        split
        · exact htally (hs.takeHit hf) _
        · split
          · exact htally (hs.seed hf) _
          · exact htally hs _
      · exact htally hs _

theorem TrackerInv.takeBurst {d : Dwell} {ready : AT} {off dur : Nat} {raw : Byte} {a b : Bool} (hs : TrackerInv s) :
    TrackerInv (takeBurst d ready off dur raw a b s) := by
  have hseen : TrackerInv (if saturatedRaw raw then markOver d s else s) := by
    split
    · exact trackerInv_reads.quiet hs (markOver_touches _ _)
    · exact hs
  unfold Machine.takeBurst
  split
  · exact hs
  · dsimp only
    split
    · exact trackerInv_reads.quiet hs (onTally_touches _ _ _)
    · split
      · exact trackerInv_reads.quiet hseen (onTally_touches _ _ _)
      · exact hseen.bandTests

theorem TrackerInv.burstRecord {id : Byte} {off dur : Nat} {raw : Byte} {a b : Bool} (hs : TrackerInv s) :
    TrackerInv (burstRecord id off dur raw a b s) := by
  unfold Machine.burstRecord
  split
  · exact hs
  · split
    · exact hs
    · exact trackerInv_reads.quiet hs.takeBurst (wakeIfParked_touches _)

theorem TrackerInv.handOver (d : Dwell) (ready : AT) (rep : Option Report) (hs : TrackerInv s) :
    TrackerInv (handOver d ready rep s) := by
  unfold Machine.handOver
  refine TrackerInv.dwellSpan (trackerInv_reads.quiet hs (ps := [.bcl, .omap, .events]) ?_)
  exact ((withBcl_touches _ _).step (dwellReport_touches _ _ _ _ _) (rs := [.bcl, .omap, .events])).trans
    ((setChan_touches _ _ _).step (closeUnder_touches _ _ _))

theorem TrackerInv.enterFault (hs : TrackerInv s) : TrackerInv (enterFault s) :=
  trackerInv_reads.quiet
    (TrackerInv.faultTrackers (TrackerInv.raise _ _ (trackerInv_reads.quiet hs (withSsc_touches _ _))))
    (faultCalibration_touches _)

theorem trackerInv_sweep : KeptBySweep TrackerInv :=
  trackerInv_reads.keptBySweep (by decide) TrackerInv.handOver
    (fun _ _ hs => trackerInv_reads.quiet hs (calOutcome_touches _ _ _))
    (fun hs => trackerInv_reads.quiet hs (tableCompletion_touches _))
    (fun _ hs => trackerInv_reads.quiet hs (mapPass_touches _ _))
    (fun hs => trackerInv_reads.quiet hs (planningPass_touches _)) TrackerInv.enterFault

theorem TrackerInv.start (cause : StartCause) (dom mains : BitVec 2) (id : Byte) (corr : Chan → Int) (out : List Byte)
    (q : List Instr) : TrackerInv (State.start cause dom mains id corr out q) := by
  have hset : Otk.start.settings.ok := by simp [TrackSettings.ok, Otk.start]
  have htr : Tracker.start.ok := ⟨by decide, by decide, fun _ h => by cases h⟩
  exact ⟨hset, fun k => by cases k <;> exact htr⟩

theorem trackerInv_frames : KeptByFrames TrackerInv :=
  trackerInv_reads.keptByFrames (by decide)
    (fun cause q => trackerInv_reads.quiet (TrackerInv.start cause 0 0 0 (fun _ => 0) [] q)
      (ps := [.phase, .events]) fun p hp => by cases p <;> first | rfl | exact absurd (by decide) hp)
    (fun _ _ _ _ _ _ => TrackerInv.start _ _ _ _ _ _ _) (fun _ => TrackerInv.start _ _ _ _ _ _ _)

/-! ## Every command -/

/-- R48: the stored settings are the clamped ones. -/
theorem trackSettingsOf_ok (p : List Byte) (policy : Policy) : (trackSettingsOf p policy).ok := by
  simp only [TrackSettings.ok, trackSettingsOf, clampNat]
  omega

theorem TrackerInv.setTracking (hs : TrackerInv s) (h : execSetTracking now s = .next t) : TrackerInv t := by
  refine trackerInv_frames.handle (fun {p u} hu => ?_) hs h
  split
  · exact hu
  · have h1 (x : Policy) : TrackerInv (u.withOtk { u.otk with settings := trackSettingsOf p x }) :=
      ⟨trackSettingsOf_ok p x, hu.2⟩
    exact (h1 _).expirePassed.expirePassed.expirePassed

/-- R68: a tracker under another guard that is in range. -/
theorem retuned_ok {tr : Tracker} {mode : GuardMode} {g : Nat} (h : tr.ok) (hg : 100 ≤ g ∧ g ≤ 2000) :
    (retuned tr mode g).ok := by
  refine ⟨hg.1, hg.2, fun o ho => ?_⟩
  obtain ⟨o', ho', rfl⟩ := Option.map_eq_some_iff.mp (show Option.map _ tr.oven = some o from ho)
  obtain ⟨h1, h2, h3, h4, _, _, hrest⟩ := h.2.2 o' ho'
  exact ⟨h1, h2, h3, h4, hg.1, hg.2, hrest⟩

theorem TrackerInv.setTrackerCommand (hs : TrackerInv s) (h : execSetTracker now s = .next t) : TrackerInv t := by
  refine trackerInv_frames.handle (fun {p u} hu => ?_) hs h
  split
  · refine hu.setTracker (retuned_ok (hu.2 _) ?_)
    simp only [clampNat]
    omega
  · exact hu

theorem TrackerInv.restartTracker (hs : TrackerInv s) (h : execRestartTracker now s = .next t) : TrackerInv t := by
  refine trackerInv_frames.handle (fun {p u} hu => ?_) hs h
  split
  · exact hu.toIdle
  · exact hu

theorem TrackerInv.burst {id raw : Byte} {off : BitVec 24} {dur : BitVec 16} {a b : Bool} (hs : TrackerInv s)
    (h : execBurst now id off dur raw a b s = .next t) : TrackerInv t :=
  trackerInv_frames.senseEvent TrackerInv.burstRecord hs h

theorem TrackerInv.searchTimeout (hs : TrackerInv s) (h : execSearchTimeout now k s = .next t) : TrackerInv t := by
  refine trackerInv_frames.event (fun {u} hu => ?_) hs h
  split
  · exact hu
  · next o ho =>
    split
    · split
      · exact hu.searchTimedOut (hu.oven ho)
      · exact hu
    · exact hu
    · exact hu

theorem TrackerInv.holdoverExpiry (hs : TrackerInv s) (h : execHoldoverExpiry now k s = .next t) : TrackerInv t := by
  refine trackerInv_frames.event (fun {u} hu => ?_) hs h
  split
  · exact hu
  · split
    · split
      · exact hu.holdoverExpired
      · exact hu
    · exact hu
    · exact hu

theorem TrackerInv.exec {c : Instr} (hs : TrackerInv s) (h : exec c s = .next t) : TrackerInv t := by
  by_cases hframe : (touched c).all (fun p => decide (p ∉ [Part.otk])) = true
  · exact trackerInv_reads.quiet hs (exec_touches h) hframe
  cases c with
  | fullReset _ => exact trackerInv_frames.fullReset_next h
  | startInstant _ _ => exact trackerInv_frames.startInstant hs h
  | writeTransaction _ _ => exact trackerInv_frames.writeTransaction hs h
  | readTransaction _ _ => exact trackerInv_frames.readTransaction hs h
  | resetPartDeadline _ => exact trackerInv_frames.resetPartDeadline hs h
  | setTracking _ => exact hs.setTracking h
  | setTracker _ => exact hs.setTrackerCommand h
  | restartTracker _ => exact hs.restartTracker h
  | ready _ _ => exact trackerInv_frames.senseEvent (trackerInv_sweep.readyRecord _) hs h
  | burst _ _ _ _ _ _ _ => exact hs.burst h
  | close _ _ _ _ => exact trackerInv_frames.senseEvent (trackerInv_sweep.closeRecord _ _) hs h
  | dwellEnd _ => exact trackerInv_sweep.dwellEnd trackerInv_frames hs h
  | tuneTimeout _ => exact trackerInv_sweep.tuneTimeout trackerInv_frames hs h
  | closeWaitExpiry _ => exact trackerInv_sweep.closeWaitExpiry trackerInv_frames hs h
  | searchTimeout _ _ => exact hs.searchTimeout h
  | holdoverExpiry _ _ => exact hs.holdoverExpiry h
  | _ => exact (hframe rfl).elim

end Ops

/-- Settles O9: the hit update, the seed and the settings clamp what they write; a span only widens, and within 2.4 GHz. -/
theorem stepKeepsTrackerRanges : Obligations.StepKeepsTrackerRanges := by
  unfold Obligations.StepKeepsTrackerRanges
  exact fun _ _ hs h => trackerInv_frames.step TrackerInv.exec hs h

end Sys2Proof.Machine
end

section
/-! The invariant of the event unit (R204, R209): the set in kind-code order, its counts in range, and ATTN at the level that
the set and the mask call for. -/

namespace Sys2Proof.Machine

set_option Elab.async false

/-! ## One occurrence -/

section Record

variable {k : EventKind} {d : Nat} {now : AT} {set : List EventEntry}

/-- R204: counts stay from 1 to 255. -/
theorem recordEvent_count (h : ∀ e ∈ set, 1 ≤ e.count ∧ e.count ≤ 255) :
    ∀ e ∈ recordEvent k d now set, 1 ≤ e.count ∧ e.count ≤ 255 := by
  fun_induction recordEvent k d now set with
  | case1 => simp
  | case2 x rest hx =>
    refine List.forall_mem_cons.mpr ⟨⟨le_min (by decide) (Nat.le_add_left _ _), Nat.min_le_left _ _⟩, ?_⟩
    exact fun e he => h e (List.mem_cons_of_mem _ he)
  | case3 x rest _ _ => exact List.forall_mem_cons.mpr ⟨⟨le_refl 1, show 1 ≤ 255 by decide⟩, h⟩
  | case4 x rest _ _ ih =>
    exact List.forall_mem_cons.mpr ⟨h x List.mem_cons_self, ih fun e he => h e (List.mem_cons_of_mem _ he)⟩

/-- R209: an occurrence adds its kind to the kinds that are pending. -/
theorem attnLevel_recordEvent (mask : BitVec 25) :
    attnLevel (recordEvent k d now set) mask = (attnLevel set mask || enabledIn mask k) := by
  fun_induction recordEvent k d now set with
  | case1 => simp [attnLevel]
  | case2 x rest hx => simp [attnLevel, hx, Bool.or_comm]
  | case3 x rest _ _ => simp [attnLevel, Bool.or_comm]
  | case4 x rest _ _ ih =>
    simp only [attnLevel, List.any_cons] at ih ⊢
    rw [ih, Bool.or_assoc]

end Record

/-! ## The operations that raise events -/

theorem eventsInv_reads : Reads [.events] EventsInv := by
  intro s t h hs
  have he : s.events = t.events := h .events (by decide)
  simpa only [EventsInv, he] using hs

section Ops

variable {s t : State} {now : AT} {k : TrackerId} {r : Radio}

theorem EventsInv.raise (e : EventKind) (d : Nat) (hs : EventsInv s) : EventsInv (raise e d s) := by
  obtain ⟨horder, hcount, hattn⟩ := hs
  refine ⟨recordEvent_pairwise horder, recordEvent_count hcount, ?_⟩
  rw [raise_attn, raise_set, raise_mask, attnLevel_recordEvent, hattn]

theorem EventsInv.takeHit {f : Offer} (hs : EventsInv s) : EventsInv (takeHit f k s) := by
  have h1 (x : Tracker) : EventsInv (s.setTracker k x) := eventsInv_reads.quiet hs (setTracker_touches _ _ _)
  unfold Machine.takeHit
  split
  · exact hs
  · dsimp only
    split
    · exact (h1 _).raise _ _
    · exact h1 _

theorem EventsInv.seed {f : Offer} (hs : EventsInv s) : EventsInv (seed f s) := by
  unfold Machine.seed
  split
  · exact eventsInv_reads.quiet hs (setTracker_touches _ _ _)
  · exact hs.raise _ _

theorem EventsInv.toIdle (hs : EventsInv s) : EventsInv (toIdle k s) := eventsInv_reads.quiet hs (toIdle_touches _ _)

theorem EventsInv.searchTimedOut {o : Oven} (hs : EventsInv s) : EventsInv (searchTimedOut k o s) := by
  unfold Machine.searchTimedOut
  split
  · exact eventsInv_reads.quiet hs (setTracker_touches _ _ _)
  · exact hs.toIdle.raise _ _

theorem EventsInv.holdoverExpired (hs : EventsInv s) : EventsInv (holdoverExpired k s) := hs.toIdle.raise _ _

theorem EventsInv.enterHoldover {o : Oven} {d : Nat} (hs : EventsInv s) : EventsInv (enterHoldover k o d s) :=
  EventsInv.raise _ _ (eventsInv_reads.quiet hs (setTracker_touches _ _ _))

theorem EventsInv.examineTracker {id : Byte} {c : Chan} {ready : AT} {n : Nat} {cov : List (Int × Int)}
    (hs : EventsInv s) : EventsInv (examineTracker id c ready n cov s k) := by
  have h1 (x : Tracker) : EventsInv (s.setTracker k x) := eventsInv_reads.quiet hs (setTracker_touches _ _ _)
  unfold Machine.examineTracker
  split
  · exact hs
  · dsimp only
    split
    · split
      · exact hs.enterHoldover
      · exact h1 _
    · exact h1 _

theorem EventsInv.dwellSpan {id : Byte} {c : Chan} {ready : AT} {n : Nat} {cov : List (Int × Int)} (hs : EventsInv s) :
    EventsInv (dwellSpan id c ready n cov s) :=
  hs.examineTracker.examineTracker.examineTracker

theorem EventsInv.faultTracker (hs : EventsInv s) : EventsInv (faultTracker s k) := by
  unfold Machine.faultTracker
  split
  · exact hs
  · split
    · exact hs.enterHoldover
    · exact hs

theorem EventsInv.faultTrackers (hs : EventsInv s) : EventsInv (faultTrackers s) :=
  hs.faultTracker.faultTracker.faultTracker

theorem EventsInv.expirePassed (hs : EventsInv s) : EventsInv (expirePassed s k) := by
  unfold Machine.expirePassed
  split
  · exact hs
  · split
    · split
      · exact hs.holdoverExpired
      · exact hs
    · exact hs
    · exact hs

theorem EventsInv.barChannel (c : Chan) (hs : EventsInv s) : EventsInv (barChannel c s) :=
  EventsInv.raise _ _ (eventsInv_reads.quiet hs (setChan_touches _ _ _))

theorem EventsInv.overheardReport {n : BitVec 32} {c : Chan} {raw : Byte} {air : BitVec 32} (hs : EventsInv s) :
    EventsInv (overheardReport r n c raw air s) := by
  have h1 (x : Ntab) : EventsInv (s.withNtab x) := eventsInv_reads.quiet hs (withNtab_touches _ _)
  unfold Machine.overheardReport
  dsimp only
  split
  · exact h1 _
  · unfold makeEntry
    dsimp only
    split
    · split
      · exact (h1 _).raise _ _
      · exact h1 _
    · exact h1 _

theorem EventsInv.markOver (d : Dwell) (hs : EventsInv s) : EventsInv (markOver d s) := by
  have h1 (f : Tally → Tally) (x : ChannelRecord) : EventsInv ((onTally d.id f s).setChan d.chan x) :=
    eventsInv_reads.quiet hs (ps := [.bcl, .omap]) ((onTally_touches _ _ _).step (setChan_touches _ _ _))
  unfold Machine.markOver
  dsimp only
  split
  · exact h1 _ _
  · exact (h1 _ _).raise _ _

theorem EventsInv.onTally {id : Byte} {g : Tally → Tally} (hs : EventsInv s) : EventsInv (onTally id g s) :=
  eventsInv_reads.quiet hs (onTally_touches _ _ _)

theorem EventsInv.bandTests {f : Offer} {us : Nat} (hs : EventsInv s) : EventsInv (bandTests f us s) := by
  unfold Machine.bandTests
  split
  · exact hs.onTally
  · split
    · exact hs.onTally
    · split
      · unfold offerBurst
        split
        · exact hs.takeHit.onTally
        · split
          · exact hs.seed.onTally
          · exact hs.onTally
      · exact hs.onTally

theorem EventsInv.takeBurst {d : Dwell} {ready : AT} {off dur : Nat} {raw : Byte} {a b : Bool} (hs : EventsInv s) :
    EventsInv (takeBurst d ready off dur raw a b s) := by
  have hseen : EventsInv (if saturatedRaw raw then Machine.markOver d s else s) := by
    split
    · exact hs.markOver d
    · exact hs
  unfold Machine.takeBurst
  split
  · exact hs
  · dsimp only
    split
    · exact hs.onTally
    · split
      · exact hseen.onTally
      · exact hseen.bandTests

theorem EventsInv.burstRecord {id : Byte} {off dur : Nat} {raw : Byte} {a b : Bool} (hs : EventsInv s) :
    EventsInv (burstRecord id off dur raw a b s) := by
  unfold Machine.burstRecord
  split
  · exact hs
  · split
    · exact hs
    · exact eventsInv_reads.quiet hs.takeBurst (wakeIfParked_touches _)

theorem EventsInv.closeUnder (c : Chan) (rep : Option Report) (hs : EventsInv s) : EventsInv (closeUnder c rep s) := by
  have h1 (x : ChannelRecord) : EventsInv (s.setChan c x) := eventsInv_reads.quiet hs (setChan_touches _ _ _)
  unfold Machine.closeUnder
  split
  · exact hs
  · dsimp only
    split
    · exact (h1 _).raise _ _
    · exact h1 _

theorem EventsInv.handOver (d : Dwell) (ready : AT) (rep : Option Report) (hs : EventsInv s) :
    EventsInv (handOver d ready rep s) := by
  unfold Machine.handOver
  refine EventsInv.dwellSpan (EventsInv.closeUnder _ _ (eventsInv_reads.quiet hs (ps := [.bcl, .omap]) ?_))
  exact ((withBcl_touches _ _).step (dwellReport_touches _ _ _ _ _) (rs := [.bcl, .omap])).trans
    (setChan_touches _ _ _).mono

theorem EventsInv.endRun (status : CalStatus) (hs : EventsInv s) : EventsInv (endRun status s) :=
  EventsInv.raise _ _ (eventsInv_reads.quiet hs (withBcl_touches _ _))

theorem EventsInv.calOutcome (d : Dwell) (m : Option Byte) (hs : EventsInv s) : EventsInv (calOutcome d m s) := by
  have h1 (x : Omap) (y : Bcl) : EventsInv ((s.withOmap x).withBcl y) :=
    eventsInv_reads.quiet hs (ps := [.omap, .bcl]) ((withOmap_touches _ _).step (withBcl_touches _ _))
  unfold Machine.calOutcome
  dsimp only
  split
  · split
    · exact (h1 _ _).endRun _
    · exact h1 _ _
  · exact hs

theorem EventsInv.withSsc {x : Ssc} (hs : EventsInv s) : EventsInv (s.withSsc x) :=
  eventsInv_reads.quiet hs (withSsc_touches _ _)

theorem EventsInv.applyPlan (hs : EventsInv s) : EventsInv (applyPlan s) := hs.withSsc.raise _ _

theorem EventsInv.visit (hs : EventsInv s) : EventsInv (visit s).1 := by
  have hlate {u : State} {c : Bool} {n : Nat} (hu : EventsInv u) :
      EventsInv (if c then Machine.raise .roundLate n u else u) := by
    split
    · exact hu.raise _ _
    · exact hu
  have hend (u : State) (hu : EventsInv u) : EventsInv (if u.ssc.armed = true then Machine.applyPlan u else u) := by
    split
    · exact hu.applyPlan
    · exact hu
  unfold Machine.visit
  dsimp only
  split
  · exact hend _ (hlate (EventsInv.withSsc hs.withSsc))
  · exact hs.withSsc

theorem EventsInv.clearFault (hs : EventsInv s) : EventsInv (clearFault s) := by
  unfold Machine.clearFault
  split
  · exact hs.withSsc.raise _ _
  · exact hs

theorem EventsInv.faultCalibration (hs : EventsInv s) : EventsInv (faultCalibration s) := by
  unfold Machine.faultCalibration
  dsimp only
  split
  · exact EventsInv.endRun _ (eventsInv_reads.quiet (EventsInv.withSsc hs) (withBcl_touches _ _))
  · exact hs.withSsc

theorem EventsInv.enterFault (hs : EventsInv s) : EventsInv (enterFault s) :=
  (EventsInv.faultTrackers (EventsInv.raise _ _ hs.withSsc)).faultCalibration

theorem EventsInv.commitPlan (hs : EventsInv s) : EventsInv (commitPlan s) := by
  have h1 : EventsInv (startRoundIfPassed s) := eventsInv_reads.quiet hs (startRoundIfPassed_touches _)
  unfold Machine.commitPlan
  dsimp only
  split
  · exact h1
  · split
    · exact h1.withSsc
    · exact eventsInv_reads.quiet (EventsInv.applyPlan h1.withSsc) (wakeIfParked_touches _)

theorem EventsInv.startRun (mode : CalMode) (mask : BitVec 40) (hs : EventsInv s) : EventsInv (startRun mode mask s) := by
  have h1 (x : Bcl) : EventsInv (s.withBcl x) := eventsInv_reads.quiet hs (withBcl_touches _ _)
  unfold Machine.startRun
  dsimp only
  split
  · exact (h1 _).faultCalibration
  · exact eventsInv_reads.quiet (EventsInv.withSsc (h1 _)) (wakeIfParked_touches _)

theorem EventsInv.calibrateWith (p : List Byte) (hs : EventsInv s) : EventsInv (calibrateWith p s).2 := by
  have hrevert (mask : BitVec 40) : EventsInv (revertRun mask s) :=
    EventsInv.endRun _ (eventsInv_reads.quiet hs (ps := [.omap, .bcl])
      ((withOmap_touches _ _).step (withBcl_touches _ _)))
  unfold Machine.calibrateWith
  split
  · exact hs
  · split
    · exact hs
    · split
      · split
        · exact hrevert _
        · exact hs.startRun _ _
        · exact hs.startRun _ _
      · exact hs

theorem EventsInv.airEnd {tag : Byte} {n : Nat} (hs : EventsInv s) : EventsInv (airEnd r tag n s) := by
  unfold Machine.airEnd
  split
  · exact hs.raise _ _
  · split
    · exact eventsInv_reads.quiet hs (closeGrant_touches _ _ _)
    · exact hs.raise _ _

theorem EventsInv.takeValid (r : Radio) (hs : EventsInv s) : EventsInv (takeValid r s) := by
  have h1 (x : Link) : EventsInv (s.setLink r x) := eventsInv_reads.quiet hs (setLink_touches _ _ _)
  unfold Machine.takeValid
  split
  · exact eventsInv_reads.quiet (EventsInv.raise .radioBack (radioCode r) (h1 _)) (ps := [.agt, .links, .cpl])
      ((leaveSafe_touches _ _).step (holdOnReturn_touches _ _))
  · exact h1 _

theorem EventsInv.silenceExpired (r : Radio) (hs : EventsInv s) : EventsInv (silenceExpired r s) :=
  EventsInv.raise _ _ (eventsInv_reads.quiet hs (ps := [.links, .agt])
    ((setLink_touches _ _ _).step (enterSafe_touches _ _)))

theorem EventsInv.setSilenceLimit (ms : Nat) (hs : EventsInv s) : EventsInv (setSilenceLimit r ms s) := by
  have h1 (x : Link) : EventsInv (s.setLink r x) := eventsInv_reads.quiet hs (setLink_touches _ _ _)
  unfold Machine.setSilenceLimit
  dsimp only
  split
  · split
    · exact (h1 _).silenceExpired r
    · exact h1 _
  · exact h1 _

theorem eventsInv_links : KeptByLinks EventsInv :=
  { raise := EventsInv.raise
    sendRadio := fun _ _ hs => eventsInv_reads.quiet hs (sendRadio_touches _ _ _)
    placeRadio := fun _ _ hs => eventsInv_reads.quiet hs (placeRadio_touches _ _ _)
    record := fun _ hs => eventsInv_reads.quiet hs (setRecord_touches _ _ _)
    mode := fun _ hs => eventsInv_reads.quiet hs (setMode_touches _ _)
    takeValid := EventsInv.takeValid
    linkError := fun _ _ hs => EventsInv.raise _ _ (eventsInv_reads.quiet hs (setLink_touches _ _ _)) }

theorem eventsInv_sweep : KeptBySweep EventsInv :=
  { handOver := EventsInv.handOver
    calOutcome := EventsInv.calOutcome
    tableCompletion := fun hs => eventsInv_reads.quiet hs (tableCompletion_touches _)
    mapPass := fun _ hs => eventsInv_reads.quiet hs (mapPass_touches _ _)
    planningPass := eventsInv_links.planningPass
    openTally := fun _ _ hs => eventsInv_reads.quiet hs (openTally_touches _ _ _)
    clearFault := EventsInv.clearFault
    enterFault := fun hs _ => hs.enterFault
    visit := EventsInv.visit
    boundary := fun hs => eventsInv_reads.quiet hs (boundary_touches _)
    current := fun _ _ => EventsInv.withSsc
    noCurrent := EventsInv.withSsc
    ended := fun _ => EventsInv.withSsc
    lastWatch := fun _ => EventsInv.withSsc
    timeouts := fun _ _ => EventsInv.withSsc }

/-- R210: after a reset START alone is pending, and every kind is enabled. -/
theorem EventsInv.start (cause : StartCause) (dom mains : BitVec 2) (id : Byte) (corr : Chan → Int) (out : List Byte)
    (q : List Instr) : EventsInv (State.start cause dom mains id corr out q) := by
  refine ⟨List.pairwise_singleton _ _, fun e he => ?_, ?_⟩
  · rw [List.mem_singleton.mp he]
    exact ⟨le_refl 1, show 1 ≤ 255 by decide⟩
  · change true = attnLevel [⟨.start, 1, _, _⟩] (BitVec.allOnes 25)
    simp [attnLevel, enabledIn, EventKind.code]

theorem eventsInv_frames : KeptByFrames EventsInv :=
  eventsInv_reads.keptByFrames (by decide) (fun _ _ => ⟨List.Pairwise.nil, fun e he => absurd he List.not_mem_nil, rfl⟩)
    (fun _ _ _ _ _ _ => EventsInv.start _ _ _ _ _ _ _) (fun _ => EventsInv.start _ _ _ _ _ _ _)

/-! ## Every command -/

theorem EventsInv.readEvents (hs : EventsInv s) (h : execReadEvents now s = .next t) : EventsInv t :=
  eventsInv_frames.handle (fun _ => ⟨List.Pairwise.nil, fun _ he => absurd he List.not_mem_nil, rfl⟩) hs h

theorem EventsInv.setEventMask (hs : EventsInv s) (h : execSetEventMask now s = .next t) : EventsInv t := by
  refine eventsInv_frames.handle (fun {p u} hu => ?_) hs h
  exact ⟨hu.1, hu.2.1, rfl⟩

theorem EventsInv.commitPlanCommand (hs : EventsInv s) (h : execCommitPlan now s = .next t) : EventsInv t :=
  eventsInv_frames.handle EventsInv.commitPlan hs h

theorem EventsInv.calibrate (hs : EventsInv s) (h : execCalibrate now s = .next t) : EventsInv t :=
  eventsInv_frames.handle (EventsInv.calibrateWith _) hs h

theorem EventsInv.calibrateRevert (hs : EventsInv s) (h : execCalibrateRevert now s = .next t) : EventsInv t := by
  unfold execCalibrateRevert at h
  split at h
  · exact eventsInv_frames.handle (EventsInv.calibrateWith _) hs h
  · exact eventsInv_frames.event (fun hu => hu) hs h

theorem EventsInv.setTracking (hs : EventsInv s) (h : execSetTracking now s = .next t) : EventsInv t := by
  refine eventsInv_frames.handle (fun {p u} hu => ?_) hs h
  split
  · exact hu
  · have h1 (x : Otk) : EventsInv (u.withOtk x) := eventsInv_reads.quiet hu (withOtk_touches _ _)
    exact (h1 _).expirePassed.expirePassed.expirePassed

theorem EventsInv.setSilence (hs : EventsInv s) (h : execSetSilence now s = .next t) : EventsInv t := by
  refine eventsInv_frames.handle (fun {p u} hu => ?_) hs h
  split
  · exact hu.setSilenceLimit _
  · exact hu

theorem EventsInv.burst {id raw : Byte} {off : BitVec 24} {dur : BitVec 16} {a b : Bool} (hs : EventsInv s)
    (h : execBurst now id off dur raw a b s = .next t) : EventsInv t :=
  eventsInv_frames.senseEvent EventsInv.burstRecord hs h

theorem EventsInv.searchTimeout (hs : EventsInv s) (h : execSearchTimeout now k s = .next t) : EventsInv t := by
  refine eventsInv_frames.event (fun {u} hu => ?_) hs h
  split
  · exact hu
  · split
    · split
      · exact hu.searchTimedOut
      · exact hu
    · exact hu
    · exact hu

theorem EventsInv.holdoverExpiry (hs : EventsInv s) (h : execHoldoverExpiry now k s = .next t) : EventsInv t := by
  refine eventsInv_frames.event (fun {u} hu => ?_) hs h
  split
  · exact hu
  · split
    · split
      · exact hu.holdoverExpired
      · exact hu
    · exact hu
    · exact hu

theorem EventsInv.airRequest {tag cls : Byte} {l m w : BitVec 16} (hs : EventsInv s)
    (h : execAirRequest now r tag l m w cls s = .next t) : EventsInv t :=
  eventsInv_frames.radioEvent (EventsInv.takeValid r)
    (fun hu => eventsInv_reads.quiet hu (airRequest_touches _ _ _ _ _ _ _)) hs h

theorem EventsInv.overheard {n : BitVec 32} {c raw : Byte} {air : BitVec 32} (hs : EventsInv s)
    (h : execOverheard now r n c raw air s = .next t) : EventsInv t :=
  eventsInv_frames.radioEvent (EventsInv.takeValid r) (eventsInv_links.withChan _ EventsInv.overheardReport) hs h

theorem EventsInv.silenceTimerExpiry (hs : EventsInv s) (h : execSilenceTimerExpiry now r s = .next t) :
    EventsInv t := by
  refine eventsInv_frames.event (fun {u} hu => ?_) hs h
  split
  · exact hu
  · split
    · exact hu.silenceExpired r
    · exact hu

theorem EventsInv.grantExpiry (hs : EventsInv s) (h : execGrantExpiry now r s = .next t) : EventsInv t := by
  refine eventsInv_frames.event (fun {u} hu => ?_) hs h
  split
  · exact hu
  · split
    · exact EventsInv.raise _ _ (eventsInv_reads.quiet hu (closeGrant_touches _ _ _))
    · exact hu

theorem EventsInv.exec {c : Instr} (hs : EventsInv s) (h : exec c s = .next t) : EventsInv t := by
  by_cases hframe : (touched c).all (fun p => decide (p ∉ [Part.events])) = true
  · exact eventsInv_reads.quiet hs (exec_touches h) hframe
  cases c with
  | fullReset _ => exact eventsInv_frames.fullReset_next h
  | startInstant _ _ => exact eventsInv_frames.startInstant hs h
  | writeTransaction _ _ => exact eventsInv_frames.writeTransaction hs h
  | readTransaction _ _ => exact eventsInv_frames.readTransaction hs h
  | resetPartDeadline _ => exact eventsInv_frames.resetPartDeadline hs h
  | hostSilenceExpiry _ => exact eventsInv_links.hostSilenceExpiry eventsInv_frames hs h
  | readEvents _ => exact hs.readEvents h
  | setEventMask _ => exact hs.setEventMask h
  | commitPlan _ => exact hs.commitPlanCommand h
  | calibrate _ => exact hs.calibrate h
  | calibrateRevert _ => exact hs.calibrateRevert h
  | setTracking _ => exact hs.setTracking h
  | setSilence _ => exact hs.setSilence h
  | ready _ _ => exact eventsInv_frames.senseEvent (eventsInv_sweep.readyRecord _) hs h
  | burst _ _ _ _ _ _ _ => exact hs.burst h
  | close _ _ _ _ => exact eventsInv_frames.senseEvent (eventsInv_sweep.closeRecord _ _) hs h
  | dwellEnd _ => exact eventsInv_sweep.dwellEnd eventsInv_frames hs h
  | tuneTimeout _ => exact eventsInv_sweep.tuneTimeout eventsInv_frames hs h
  | closeWaitExpiry _ => exact eventsInv_sweep.closeWaitExpiry eventsInv_frames hs h
  | emptyPlanTimer _ => exact eventsInv_sweep.emptyPlanTimer eventsInv_frames (fun _ _ => EventsInv.withSsc) hs h
  | searchTimeout _ _ => exact hs.searchTimeout h
  | holdoverExpiry _ _ => exact hs.holdoverExpiry h
  | status _ _ _ _ => exact eventsInv_links.status eventsInv_frames hs h
  | airRequest _ _ _ _ _ _ _ => exact hs.airRequest h
  | airEnd _ r _ _ => exact eventsInv_frames.radioEvent (EventsInv.takeValid r) EventsInv.airEnd hs h
  | overheard _ _ _ _ _ _ => exact hs.overheard h
  | radar _ _ _ => exact eventsInv_links.radar eventsInv_frames EventsInv.barChannel hs h
  | switched _ _ _ => exact eventsInv_links.switched eventsInv_frames hs h
  | linkFramingError _ _ _ _ => exact eventsInv_links.linkFramingError eventsInv_frames hs h
  | linkTruncation _ _ => exact eventsInv_links.linkTruncation eventsInv_frames hs h
  | silenceTimerExpiry _ _ => exact hs.silenceTimerExpiry h
  | switchDeadline _ _ => exact eventsInv_links.switchDeadline eventsInv_frames hs h
  | grantExpiry _ _ => exact hs.grantExpiry h
  | _ => exact (hframe rfl).elim

end Ops

/-- Settles O4: whatever raises an event records one occurrence and asserts ATTN for an enabled kind; READ EVENTS and SET
EVENT MASK set ATTN by its level. -/
theorem stepKeepsEventSetAndAttn : Obligations.StepKeepsEventSetAndAttn := by
  unfold Obligations.StepKeepsEventSetAndAttn
  exact fun _ _ hs h => eventsInv_frames.step EventsInv.exec hs h

end Sys2Proof.Machine
end

section
/-! The invariant of the schedule (R1, R9, R15, R19, R20, R73): plans and settings in range, a parked front end without a
current dwell, and the permitted fields of the map those of the latched domain; and the state after reset. -/

namespace Sys2Proof.Machine

set_option Elab.async false

/-! ## The schedule by itself -/

/-- R1, R9, R15, R20: the plans, the intervals and the tune-timeout count are in range. -/
def PlansOk (dom : BitVec 2) (x : Ssc) : Prop :=
  planOk dom x.active ∧ planOk dom x.plan ∧ x.intervalMs ≤ 30000 ∧ x.intervalMs % 5 = 0
  ∧ 100 ≤ x.watchMs ∧ x.watchMs ≤ 5000 ∧ x.watchMs % 100 = 0 ∧ x.timeouts ≤ 3

/-- R19: a parked front end has no current dwell. -/
def ParkedIdle (x : Ssc) : Prop := x.line = .parked → x.current = none

theorem scheduleInv_iff (s : State) : ScheduleInv s ↔ DomainInv s ∧ PlansOk s.host.dom s.ssc ∧ ParkedIdle s.ssc := by
  simp only [ScheduleInv, PlansOk, ParkedIdle, and_assoc]

theorem planOk_nil (dom : BitVec 2) : planOk dom [] := ⟨Nat.zero_le 32, fun _ he => absurd he List.not_mem_nil⟩

section Plans

variable {dom : BitVec 2} {x : Ssc}

/-- R1, R2: a well-formed entry may be written at a position up to the plan's length. -/
theorem planOk.writeEntry {plan : List PlanEntry} {i : Nat} {e : PlanEntry} (h : planOk dom plan) (hi : i ≤ 31)
    (hle : i ≤ plan.length) (he : 1 ≤ e.dwellMs ∧ e.dwellMs ≤ 100)
    (hc : permittedIn dom e.chan = true) : planOk dom (writeEntry i e plan) := by
  have hnew : 1 ≤ e.dwellMs ∧ e.dwellMs ≤ 100 ∧ permittedIn dom e.chan = true := ⟨he.1, he.2, hc⟩
  unfold Machine.writeEntry
  split
  · refine ⟨by rw [List.length_set]; exact h.1, fun y hy => ?_⟩
    rcases List.mem_or_eq_of_mem_set hy with hy | rfl
    · exact h.2 y hy
    · exact hnew
  · refine ⟨by rw [List.length_append, List.length_singleton]; omega, fun y hy => ?_⟩
    rcases List.mem_append.mp hy with hy | hy
    · exact h.2 y hy
    · exact List.mem_singleton.mp hy ▸ hnew

theorem PlansOk.withPlan {plan : List PlanEntry} (h : PlansOk dom x) (hp : planOk dom plan) :
    PlansOk dom { x with plan } :=
  ⟨h.1, hp, h.2.2⟩

theorem PlansOk.withTimeouts {n : Nat} (h : PlansOk dom x) (hn : n ≤ 3) : PlansOk dom { x with timeouts := n } := by
  obtain ⟨hactive, hplan, hmax, hstep, hlo, hhi, hwatch, _⟩ := h
  exact ⟨hactive, hplan, hmax, hstep, hlo, hhi, hwatch, hn⟩

/-- R9: the interval that is stored is in range. -/
theorem PlansOk.withInterval (ms : Nat) (h : PlansOk dom x) :
    PlansOk dom { x with intervalMs := storedInterval ms } := by
  obtain ⟨hactive, hplan, _, _, hrest⟩ := h
  have hmax : storedInterval ms ≤ 30000 := by unfold storedInterval; omega
  have hstep : storedInterval ms % 5 = 0 := Nat.mul_mod_left _ _
  exact ⟨hactive, hplan, hmax, hstep, hrest⟩

/-- R20: the watch interval that is stored is in range. -/
theorem PlansOk.withWatch (ms : Nat) (h : PlansOk dom x) : PlansOk dom { x with watchMs := storedWatch ms } := by
  obtain ⟨hactive, hplan, hmax, hstep, _, _, _, hcount⟩ := h
  have hlo : 100 ≤ storedWatch ms := by unfold storedWatch clampNat; omega
  have hhi : storedWatch ms ≤ 5000 := by unfold storedWatch clampNat; omega
  exact ⟨hactive, hplan, hmax, hstep, hlo, hhi, Nat.mul_mod_left _ _, hcount⟩

end Plans

/-! ## The operations -/

theorem scheduleInv_reads : Reads [.ssc, .omap, .host] ScheduleInv := by
  intro s t h hs
  have hssc : s.ssc = t.ssc := h .ssc (by decide)
  have homap : s.omap = t.omap := h .omap (by decide)
  have hhost : s.host = t.host := h .host (by decide)
  simpa only [ScheduleInv, DomainInv, State.chan, hssc, homap, hhost] using hs

section Ops

variable {s t : State} {now : AT} {k : TrackerId}

theorem ScheduleInv.domain (hs : ScheduleInv s) : DomainInv s := ((scheduleInv_iff s).mp hs).1
theorem ScheduleInv.plans (hs : ScheduleInv s) : PlansOk s.host.dom s.ssc := ((scheduleInv_iff s).mp hs).2.1
theorem ScheduleInv.parked (hs : ScheduleInv s) : ParkedIdle s.ssc := ((scheduleInv_iff s).mp hs).2.2

theorem ScheduleInv.withSsc {x : Ssc} (hs : ScheduleInv s) (hx : PlansOk s.host.dom x) (hl : ParkedIdle x) :
    ScheduleInv (s.withSsc x) :=
  (scheduleInv_iff _).mpr ⟨hs.domain, hx, hl⟩

theorem ScheduleInv.setChan {c : Chan} {x : ChannelRecord} (hs : ScheduleInv s)
    (hx : x.permitted = (s.chan c).permitted) : ScheduleInv (s.setChan c x) := by
  refine (scheduleInv_iff _).mpr ⟨fun d => ?_, hs.plans, hs.parked⟩
  rw [State.setChan_chan_eq]
  split
  · next h => rw [hx, h]; exact hs.domain _
  · exact hs.domain d

theorem ScheduleInv.withTable {f : Chan → ChannelRecord} {x : Omap} (hs : ScheduleInv s)
    (hf : ∀ c, (f c).permitted = (s.chan c).permitted) :
    ScheduleInv (s.withOmap { x with channels := chanTable f }) := by
  refine (scheduleInv_iff _).mpr ⟨fun c => ?_, hs.plans, hs.parked⟩
  rw [show (s.withOmap { x with channels := chanTable f }).chan c = f c from chanTable_get f c, hf c]
  exact hs.domain c

theorem ScheduleInv.raise (e : EventKind) (d : Nat) (hs : ScheduleInv s) : ScheduleInv (raise e d s) :=
  scheduleInv_reads.quiet hs (raise_touches _ _ _)

/-! ### The map -/

theorem ScheduleInv.closeUnder (c : Chan) (rep : Option Report) (hs : ScheduleInv s) :
    ScheduleInv (closeUnder c rep s) := by
  have h1 (b : Bool) : ScheduleInv (s.setChan c { s.chan c with underRange := b }) := hs.setChan rfl
  unfold Machine.closeUnder
  split
  · exact hs
  · dsimp only
    split
    · exact (h1 _).raise _ _
    · exact h1 _

theorem reported_permitted (div : Nat) (now : AT) (o : Nat) (b : Busy) (f : Option Nat) (x : ChannelRecord) :
    (reported div now o b f x).permitted = x.permitted := by
  unfold reported
  dsimp only
  split <;> rfl

theorem ScheduleInv.handOver (d : Dwell) (ready : AT) (rep : Option Report) (hs : ScheduleInv s) :
    ScheduleInv (handOver d ready rep s) := by
  have h1 (x : Bcl) : ScheduleInv (s.withBcl x) := scheduleInv_reads.quiet hs (withBcl_touches _ _)
  have h2 (x : Bcl) (o : Nat) (b : Busy) (f : Option Nat) : ScheduleInv (dwellReport d.chan o b f (s.withBcl x)) :=
    (h1 x).setChan (reported_permitted _ _ _ _ _ _)
  unfold Machine.handOver
  dsimp only
  refine scheduleInv_reads.quiet (ScheduleInv.closeUnder _ _ ?_) (dwellSpan_touches _ _ _ _ _ _)
  exact (h2 _ _ _ _).setChan rfl

theorem outcomeOn_permitted (c : Option Int) (x : ChannelRecord) : (outcomeOn c x).permitted = x.permitted := by
  cases c <;> rfl

theorem ScheduleInv.calOutcome (d : Dwell) (m : Option Byte) (hs : ScheduleInv s) : ScheduleInv (calOutcome d m s) := by
  unfold Machine.calOutcome
  dsimp only
  split
  · have h1 : ScheduleInv (s.withOmap { s.omap with
        channels := chanTable fun x =>
          if outcomeApplies s.bcl.cal d.chan x then outcomeOn (measuredCorrection m) (s.chan x) else s.chan x }) := by
      refine hs.withTable fun c => ?_
      split
      · exact outcomeOn_permitted _ _
      · rfl
    have h2 (x : Bcl) := scheduleInv_reads.quiet h1 (withBcl_touches _ x)
    split
    · exact scheduleInv_reads.quiet (h2 _) (endRun_touches _ _)
    · exact h2 _
  · exact hs

theorem ScheduleInv.mapPass (n : BitVec 16) (hs : ScheduleInv s) : ScheduleInv (mapPass n s) :=
  hs.withTable (x := { s.omap with passRound := n }) fun _ => rfl

theorem ScheduleInv.resetMapRecords (hs : ScheduleInv s) : ScheduleInv (resetMapRecords s) := hs.withTable fun _ => rfl

theorem ScheduleInv.barChannel (c : Chan) (hs : ScheduleInv s) : ScheduleInv (barChannel c s) :=
  have h1 (u : Option Nat) : ScheduleInv (s.setChan c { s.chan c with barredUntil := u }) := hs.setChan rfl
  (h1 _).raise _ _

theorem ScheduleInv.markOver (d : Dwell) (hs : ScheduleInv s) : ScheduleInv (markOver d s) := by
  have h1 (f : Tally → Tally) : ScheduleInv (onTally d.id f s) := scheduleInv_reads.quiet hs (onTally_touches _ _ _)
  have h2 (f : Tally → Tally) := (h1 f).setChan (c := d.chan)
    (x := { (onTally d.id f s).chan d.chan with overRange := true }) rfl
  unfold Machine.markOver
  dsimp only
  split
  · exact h2 _
  · exact (h2 _).raise _ _

theorem ScheduleInv.takeBurst {d : Dwell} {ready : AT} {off dur : Nat} {raw : Byte} {a b : Bool}
    (hs : ScheduleInv s) : ScheduleInv (takeBurst d ready off dur raw a b s) := by
  have hseen : ScheduleInv (if saturatedRaw raw then Machine.markOver d s else s) := by
    split
    · exact hs.markOver d
    · exact hs
  unfold Machine.takeBurst
  split
  · exact hs
  · dsimp only
    split
    · exact scheduleInv_reads.quiet hs (onTally_touches _ _ _)
    · split
      · exact scheduleInv_reads.quiet hseen (onTally_touches _ _ _)
      · exact scheduleInv_reads.quiet hseen (bandTests_touches _ _ _)

/-! ### Orders and rounds -/

theorem ScheduleInv.startRoundIfDue (hs : ScheduleInv s) : ScheduleInv (startRoundIfDue s) := by
  unfold Machine.startRoundIfDue
  split
  · split
    · exact hs.withSsc hs.plans hs.parked
    · exact hs
  all_goals exact hs

theorem ScheduleInv.startRoundIfPassed (hs : ScheduleInv s) : ScheduleInv (startRoundIfPassed s) := by
  unfold Machine.startRoundIfPassed
  split
  · split
    · exact hs.withSsc hs.plans hs.parked
    · exact hs
  all_goals exact hs

theorem lineOnOrder_ne_parked (x : LineState) : lineOnOrder x ≠ .parked := by
  cases x <;> exact LineState.noConfusion

theorem ScheduleInv.orderDwell {d : Dwell} {n : Nat} {x : SenseOrder} (hs : ScheduleInv s) :
    ScheduleInv (orderDwell d n x s) :=
  hs.withSsc hs.plans fun h => absurd h (lineOnOrder_ne_parked _)

theorem ScheduleInv.sendOrder (c : Choice) (hs : ScheduleInv s) : ScheduleInv (sendOrder c s) := by
  cases c with
  | watch _ _ => exact hs.orderDwell
  | reference _ _ => exact ScheduleInv.orderDwell (hs.withSsc hs.plans hs.parked)
  | sweep _ => exact hs.orderDwell
  | park => exact hs.withSsc hs.plans fun _ => rfl

theorem ScheduleInv.boundary (hs : ScheduleInv s) : ScheduleInv (boundary s) := hs.startRoundIfDue.sendOrder _

theorem ScheduleInv.wakeIfParked (hs : ScheduleInv s) : ScheduleInv (wakeIfParked s) := by
  unfold Machine.wakeIfParked
  split
  · exact hs.boundary
  · exact hs

theorem ScheduleInv.retryInFault (hs : ScheduleInv s) : ScheduleInv (retryInFault s) := by
  have hfault {u : State} {r : AT} (hu : ScheduleInv u) : ScheduleInv (u.withSsc { u.ssc with line := .fault r }) :=
    hu.withSsc hu.plans LineState.noConfusion
  unfold Machine.retryInFault
  refine hfault ?_
  split
  · exact hs.startRoundIfDue
  all_goals exact hs.startRoundIfDue.sendOrder _

theorem ScheduleInv.applyPlan (hs : ScheduleInv s) : ScheduleInv (applyPlan s) := by
  obtain ⟨_, hplan, hrest⟩ := hs.plans
  exact ScheduleInv.raise _ _ (hs.withSsc (by exact ⟨hplan, planOk_nil _, hrest⟩) hs.parked)

theorem ScheduleInv.visit (hs : ScheduleInv s) : ScheduleInv (visit s).1 := by
  have hlate {u : State} {c : Bool} {n : Nat} (hu : ScheduleInv u) :
      ScheduleInv (if c then Machine.raise .roundLate n u else u) := by
    split
    · exact hu.raise _ _
    · exact hu
  have hend (u : State) (hu : ScheduleInv u) : ScheduleInv (if u.ssc.armed = true then Machine.applyPlan u else u) := by
    split
    · exact hu.applyPlan
    · exact hu
  unfold Machine.visit
  dsimp only
  split
  · exact hend _ (hlate (ScheduleInv.withSsc (hs.withSsc hs.plans hs.parked) hs.plans hs.parked))
  · exact hs.withSsc hs.plans hs.parked

theorem ScheduleInv.commitPlan (hs : ScheduleInv s) : ScheduleInv (commitPlan s) := by
  have h1 := hs.startRoundIfPassed
  have h2 := h1.withSsc (x := { (Machine.startRoundIfPassed s).ssc with armed := true }) h1.plans h1.parked
  unfold Machine.commitPlan
  dsimp only
  split
  · exact h1
  · split
    · exact h2
    · exact h2.applyPlan.wakeIfParked

theorem ScheduleInv.setInterval (ms : Nat) (hs : ScheduleInv s) : ScheduleInv (setInterval (storedInterval ms) s) := by
  have h1 := hs.startRoundIfPassed
  have h2 := h1.withSsc (h1.plans.withInterval ms) h1.parked
  exact ScheduleInv.wakeIfParked (h2.withSsc (by exact h2.plans) (by exact h2.parked))

/-! ### The life of a dwell -/

theorem ScheduleInv.clearFault (hs : ScheduleInv s) : ScheduleInv (clearFault s) := by
  unfold Machine.clearFault
  split
  · exact ScheduleInv.raise _ _ (hs.withSsc (by exact hs.plans) (by exact LineState.noConfusion))
  · exact hs

theorem ScheduleInv.faultCalibration (hs : ScheduleInv s) : ScheduleInv (faultCalibration s) := by
  have h1 (q : List Chan) : ScheduleInv (s.withSsc { s.ssc with calQueue := q }) := hs.withSsc hs.plans hs.parked
  unfold Machine.faultCalibration
  dsimp only
  split
  · exact scheduleInv_reads.quiet (h1 _) (endRunForFault_touches _)
  · exact h1 _

theorem ScheduleInv.enterFault (hs : ScheduleInv s) : ScheduleInv (enterFault s) := by
  have h1 (r : AT) : ScheduleInv (s.withSsc { s.ssc with line := .fault r }) := hs.withSsc hs.plans LineState.noConfusion
  exact (scheduleInv_reads.quiet ((h1 _).raise _ _) (faultTrackers_touches _)).faultCalibration

theorem scheduleInv_sweep : KeptBySweep ScheduleInv :=
  { handOver := ScheduleInv.handOver
    calOutcome := ScheduleInv.calOutcome
    tableCompletion := fun hs => scheduleInv_reads.quiet hs (tableCompletion_touches _)
    mapPass := ScheduleInv.mapPass
    planningPass := fun hs => scheduleInv_reads.quiet hs (planningPass_touches _)
    openTally := fun _ _ hs => scheduleInv_reads.quiet hs (openTally_touches _ _ _)
    clearFault := ScheduleInv.clearFault
    enterFault := fun hs _ => hs.enterFault
    visit := ScheduleInv.visit
    boundary := ScheduleInv.boundary
    current := fun _ hc hs => hs.withSsc hs.plans fun h => absurd (hs.parked h) hc
    noCurrent := fun hs => hs.withSsc hs.plans fun _ => rfl
    ended := fun _ hs => hs.withSsc hs.plans hs.parked
    lastWatch := fun _ hs => hs.withSsc hs.plans hs.parked
    timeouts := fun _ hn hs => hs.withSsc (hs.plans.withTimeouts hn) hs.parked }

/-! ### Resets -/

/-- R23: the default plan is permitted in its domain. -/
theorem planOk_default (dom : BitVec 2) : planOk dom ((defaultChans dom).map fun c => ⟨c, 40⟩) := by
  refine ⟨?_, fun e he => ?_⟩
  · rw [List.length_map]
    unfold defaultChans
    calc _ ≤ (allChans.filter fun c => decide (bandOf c = .ghz24)).length := by
            refine (List.Sublist.length_le ?_)
            exact List.monotone_filter_right _ fun c hc => by simp_all
      _ ≤ 32 := by decide
  · obtain ⟨c, hc, rfl⟩ := List.mem_map.mp he
    have hp := (List.mem_filter.mp hc).2
    simp only [Bool.and_eq_true] at hp
    exact ⟨show 1 ≤ 40 by decide, show 40 ≤ 100 by decide, hp.2⟩

theorem ScheduleInv.start (cause : StartCause) (dom mains : BitVec 2) (id : Byte) (corr : Chan → Int) (out : List Byte)
    (q : List Instr) : ScheduleInv (State.start cause dom mains id corr out q) := by
  refine (scheduleInv_iff _).mpr ⟨fun c => ?_, ⟨planOk_default dom, planOk_nil dom, ?_⟩, LineState.noConfusion⟩
  · exact congrArg ChannelRecord.permitted (chanTable_get _ c)
  · exact ⟨show 0 ≤ 30000 by decide, rfl, show 100 ≤ 500 by decide, show 500 ≤ 5000 by decide,
      show 500 % 100 = 0 by decide, Nat.zero_le 3⟩

theorem ScheduleInv.withHost {x : HostPort} (hx : x.dom = s.host.dom) (hs : ScheduleInv s) :
    ScheduleInv (s.withHost x) := by
  refine (scheduleInv_iff _).mpr ⟨fun c => ?_, ?_, hs.parked⟩
  · rw [State.withHost_host, hx]
    exact hs.domain c
  · rw [State.withHost_host, hx]
    exact hs.plans

theorem scheduleInv_frames : KeptByFrames ScheduleInv :=
  { now := fun _ hs => scheduleInv_reads.quiet hs (withNow_touches _ _)
    host := fun hx hs => hs.withHost hx
    pending := fun _ hs => hs
    fullReset := fun cause q => ScheduleInv.start cause 0 0 0 (fun _ => 0) [] q
    beginWork := fun _ _ _ _ => (ScheduleInv.start _ _ _ _ _ _ _).boundary
    resetPart := fun _ => ScheduleInv.withHost rfl (ScheduleInv.start _ _ _ _ _ _ _).boundary }

/-! ## Every command -/

theorem ScheduleInv.resetMap (hs : ScheduleInv s) (h : execResetMap now s = .next t) : ScheduleInv t :=
  scheduleInv_frames.handle (fun hu => scheduleInv_reads.quiet (ScheduleInv.resetMapRecords hu) (ps := [.ntab, .cpl])
    ((withNtab_touches _ _).step (resetPlans_touches _))) hs h

/-- R1, R2: an entry is stored on a permitted channel, its length clamped. -/
theorem ScheduleInv.writePlanEntry (hs : ScheduleInv s) (h : execWritePlanEntry now s = .next t) : ScheduleInv t := by
  refine scheduleInv_frames.handle (fun {p u} hu => ?_) hs h
  split
  · exact hu
  · split
    · exact hu
    · next c _ =>
      split
      · exact hu
      · next hperm =>
        split
        · exact hu
        · next hpos =>
          have hc : permittedIn u.host.dom c = true := by
            rw [← hu.domain c]
            simpa using hperm
          refine hu.withSsc (hu.plans.withPlan ?_) hu.parked
          refine hu.plans.2.1.writeEntry (by omega) (by omega) ?_ hc
          dsimp only [clampNat]
          omega

theorem ScheduleInv.clearPlan (hs : ScheduleInv s) (h : execClearPlan now s = .next t) : ScheduleInv t := by
  refine scheduleInv_frames.handle (fun {p u} hu => ?_) hs h
  split
  · exact hu
  · exact hu.withSsc (hu.plans.withPlan (planOk_nil _)) hu.parked

theorem ScheduleInv.setWatch (hs : ScheduleInv s) (h : execSetWatch now s = .next t) : ScheduleInv t := by
  refine scheduleInv_frames.handle (fun {p u} hu => ?_) hs h
  exact ScheduleInv.wakeIfParked (hu.withSsc (hu.plans.withWatch _) hu.parked)

theorem ScheduleInv.startRun (mode : CalMode) (mask : BitVec 40) (hs : ScheduleInv s) :
    ScheduleInv (startRun mode mask s) := by
  have h1 (x : Bcl) : ScheduleInv (s.withBcl x) := scheduleInv_reads.quiet hs (withBcl_touches _ _)
  unfold Machine.startRun
  dsimp only
  split
  · exact (h1 _).faultCalibration
  · exact ScheduleInv.wakeIfParked ((h1 _).withSsc (by exact hs.plans) (by exact hs.parked))

theorem ScheduleInv.revertRun (mask : BitVec 40) (hs : ScheduleInv s) : ScheduleInv (revertRun mask s) := by
  have h1 : ScheduleInv (s.withOmap { s.omap with
      channels := chanTable fun c => if inMask mask c then { s.chan c with correction := 0 } else s.chan c }) := by
    refine hs.withTable fun c => ?_
    split <;> rfl
  exact scheduleInv_reads.quiet h1 (ps := [.bcl, .events]) ((withBcl_touches _ _).step (endRun_touches _ _))

theorem ScheduleInv.calibrateWith (p : List Byte) (hs : ScheduleInv s) : ScheduleInv (calibrateWith p s).2 := by
  unfold Machine.calibrateWith
  split
  · exact hs
  · split
    · exact hs
    · split
      · split
        · exact hs.revertRun _
        · exact hs.startRun _ _
        · exact hs.startRun _ _
      · exact hs

theorem ScheduleInv.calibrateRevert (hs : ScheduleInv s) (h : execCalibrateRevert now s = .next t) : ScheduleInv t := by
  unfold execCalibrateRevert at h
  split at h
  · exact scheduleInv_frames.handle (ScheduleInv.calibrateWith _) hs h
  · exact scheduleInv_frames.event (fun hu => hu) hs h

theorem ScheduleInv.writeCorrection (hs : ScheduleInv s) (h : execWriteCorrection now s = .next t) : ScheduleInv t := by
  refine scheduleInv_frames.handle (fun {p u} hu => ?_) hs h
  split
  · exact hu
  · split
    · exact hu
    · exact hu.setChan rfl

/-- The settings of the map have no part in what is permitted. -/
theorem ScheduleInv.withMapSettings {x : Omap} (hx : x.channels = s.omap.channels) (hs : ScheduleInv s) :
    ScheduleInv (s.withOmap x) := by
  refine (scheduleInv_iff _).mpr ⟨fun c => ?_, hs.plans, hs.parked⟩
  rw [show (s.withOmap x).chan c = s.chan c by simp only [State.chan, State.withOmap_omap, hx]]
  exact hs.domain c

theorem ScheduleInv.setAveraging (hs : ScheduleInv s) (h : execSetAveraging now s = .next t) : ScheduleInv t := by
  refine scheduleInv_frames.handle (fun {p u} hu => ?_) hs h
  dsimp only
  split
  · exact ScheduleInv.withMapSettings rfl hu
  · exact hu

theorem ScheduleInv.setHeldOut (f : Bool) (p : List Byte) (hs : ScheduleInv s) : ScheduleInv (setHeldOut f p s).2 := by
  unfold Machine.setHeldOut
  split
  · exact hs.setChan rfl
  · exact hs

theorem ScheduleInv.toIdle (hs : ScheduleInv s) : ScheduleInv (toIdle k s) := by
  have h1 (x : Tracker) : ScheduleInv (s.setTracker k x) := scheduleInv_reads.quiet hs (setTracker_touches _ _ _)
  exact (h1 _).withSsc hs.plans fun h => congrArg (Option.map (forgetWatch k)) (hs.parked h)

theorem ScheduleInv.holdoverExpired (hs : ScheduleInv s) : ScheduleInv (holdoverExpired k s) := hs.toIdle.raise _ _

theorem ScheduleInv.searchTimedOut {o : Oven} (hs : ScheduleInv s) : ScheduleInv (searchTimedOut k o s) := by
  unfold Machine.searchTimedOut
  split
  · exact scheduleInv_reads.quiet hs (setTracker_touches _ _ _)
  · exact hs.toIdle.raise _ _

theorem ScheduleInv.expirePassed (hs : ScheduleInv s) : ScheduleInv (expirePassed s k) := by
  unfold Machine.expirePassed
  split
  · exact hs
  · split
    · split
      · exact hs.holdoverExpired
      · exact hs
    · exact hs
    · exact hs

theorem ScheduleInv.setTracking (hs : ScheduleInv s) (h : execSetTracking now s = .next t) : ScheduleInv t := by
  refine scheduleInv_frames.handle (fun {p u} hu => ?_) hs h
  split
  · exact hu
  · have h1 (x : Otk) : ScheduleInv (u.withOtk x) := scheduleInv_reads.quiet hu (withOtk_touches _ _)
    exact (h1 _).expirePassed.expirePassed.expirePassed

theorem ScheduleInv.restartTracker (hs : ScheduleInv s) (h : execRestartTracker now s = .next t) : ScheduleInv t := by
  refine scheduleInv_frames.handle (fun {p u} hu => ?_) hs h
  split
  · exact hu.toIdle
  · exact hu

theorem ScheduleInv.burstRecord {id : Byte} {off dur : Nat} {raw : Byte} {a b : Bool} (hs : ScheduleInv s) :
    ScheduleInv (burstRecord id off dur raw a b s) := by
  unfold Machine.burstRecord
  split
  · exact hs
  · split
    · exact hs
    · exact hs.takeBurst.wakeIfParked

theorem ScheduleInv.faultRetry (hs : ScheduleInv s) (h : execFaultRetry now s = .next t) : ScheduleInv t := by
  refine scheduleInv_frames.event (fun {u} hu => ?_) hs h
  split
  · split
    · exact hu.retryInFault
    · exact hu
  all_goals exact hu

theorem ScheduleInv.senseResyncClear (hs : ScheduleInv s) (h : execSenseResyncClear now s = .next t) :
    ScheduleInv t := by
  refine scheduleInv_frames.event (fun {u} hu => ?_) hs h
  exact hu.withSsc hu.plans hu.parked

theorem ScheduleInv.watchDue (hs : ScheduleInv s) (h : execWatchDue now s = .next t) : ScheduleInv t := by
  refine scheduleInv_frames.event (fun {u} hu => ?_) hs h
  split
  · exact hu.wakeIfParked
  · exact hu

theorem ScheduleInv.searchTimeout (hs : ScheduleInv s) (h : execSearchTimeout now k s = .next t) : ScheduleInv t := by
  refine scheduleInv_frames.event (fun {u} hu => ?_) hs h
  split
  · exact hu
  · split
    · split
      · exact hu.searchTimedOut
      · exact hu
    · exact hu
    · exact hu

theorem ScheduleInv.holdoverExpiry (hs : ScheduleInv s) (h : execHoldoverExpiry now k s = .next t) :
    ScheduleInv t := by
  refine scheduleInv_frames.event (fun {u} hu => ?_) hs h
  split
  · exact hu
  · split
    · split
      · exact hu.holdoverExpired
      · exact hu
    · exact hu
    · exact hu

theorem ScheduleInv.barClockTick (hs : ScheduleInv s) (h : execBarClockTick now s = .next t) : ScheduleInv t := by
  refine scheduleInv_frames.event (fun {u} hu => ?_) hs h
  dsimp only
  split
  · exact hu.withMapSettings rfl
  · exact hu

theorem ScheduleInv.radarBarExpiry {c : Chan} (hs : ScheduleInv s) (h : execRadarBarExpiry now c s = .next t) :
    ScheduleInv t := by
  refine scheduleInv_frames.event (fun {u} hu => ?_) hs h
  split
  · exact hu
  · split
    · exact hu.setChan rfl
    · exact hu

theorem ScheduleInv.radar {r : Radio} {c : Byte} (hs : ScheduleInv s) (h : execRadar now r c s = .next t) :
    ScheduleInv t := by
  refine scheduleInv_frames.radioEvent (fun hu => scheduleInv_reads.quiet hu (takeValid_touches _ _)) (fun {u} hu => ?_)
    hs h
  unfold withChan
  split
  · exact scheduleInv_reads.quiet (ScheduleInv.barChannel _ hu) (plannerRadar_touches _ _)
  · exact scheduleInv_reads.quiet hu (linkError_touches _ _ _)

theorem ScheduleInv.commitPlanCommand (hs : ScheduleInv s) (h : execCommitPlan now s = .next t) : ScheduleInv t :=
  scheduleInv_frames.handle ScheduleInv.commitPlan hs h

theorem ScheduleInv.setRoundInterval (hs : ScheduleInv s) (h : execSetRoundInterval now s = .next t) : ScheduleInv t :=
  scheduleInv_frames.handle (ScheduleInv.setInterval _) hs h

theorem ScheduleInv.readSchedule (hs : ScheduleInv s) (h : execReadSchedule now s = .next t) : ScheduleInv t :=
  scheduleInv_frames.handle ScheduleInv.startRoundIfPassed hs h

theorem ScheduleInv.calibrate (hs : ScheduleInv s) (h : execCalibrate now s = .next t) : ScheduleInv t :=
  scheduleInv_frames.handle (ScheduleInv.calibrateWith _) hs h

theorem ScheduleInv.setMargin (hs : ScheduleInv s) (h : execSetMargin now s = .next t) : ScheduleInv t :=
  scheduleInv_frames.handle (ScheduleInv.withMapSettings rfl) hs h

theorem ScheduleInv.setWeights (hs : ScheduleInv s) (h : execSetWeights now s = .next t) : ScheduleInv t :=
  scheduleInv_frames.handle (ScheduleInv.withMapSettings rfl) hs h

theorem ScheduleInv.setBarTime (hs : ScheduleInv s) (h : execSetBarTime now s = .next t) : ScheduleInv t :=
  scheduleInv_frames.handle (ScheduleInv.withMapSettings rfl) hs h

theorem ScheduleInv.barChannelCommand (hs : ScheduleInv s) (h : execBarChannel now s = .next t) : ScheduleInv t :=
  scheduleInv_frames.handle (ScheduleInv.setHeldOut true _) hs h

theorem ScheduleInv.unbar (hs : ScheduleInv s) (h : execUnbar now s = .next t) : ScheduleInv t :=
  scheduleInv_frames.handle (ScheduleInv.setHeldOut false _) hs h

/-- A command that touches neither the schedule nor the map, and does not reset the part. -/
theorem ScheduleInv.of_frame {c : Instr} (hs : ScheduleInv s) (h : exec c s = .next t)
    (hf : (touched c).all (fun p => decide (p ∉ [Part.ssc, .omap, .phase])) = true) : ScheduleInv t := by
  have hnot (p : Part) (hp : p ∈ [Part.ssc, .omap, .phase]) : p ∉ touched c := fun hm =>
    of_decide_eq_true (List.all_eq_true.mp hf p hm) hp
  have hssc : s.ssc = t.ssc := exec_touches h .ssc (hnot _ (by decide))
  have homap : s.omap = t.omap := exec_touches h .omap (hnot _ (by decide))
  have hdom := exec_dom h (hnot .phase (by decide))
  simpa only [ScheduleInv, DomainInv, State.chan, hssc, homap, hdom] using hs

theorem ScheduleInv.exec {c : Instr} (hs : ScheduleInv s) (h : exec c s = .next t) : ScheduleInv t := by
  by_cases hframe : (touched c).all (fun p => decide (p ∉ [Part.ssc, .omap, .phase])) = true
  · exact hs.of_frame h hframe
  cases c with
  | fullReset _ => exact scheduleInv_frames.fullReset_next h
  | startInstant _ _ => exact scheduleInv_frames.startInstant hs h
  | writeTransaction _ _ => exact scheduleInv_frames.writeTransaction hs h
  | readTransaction _ _ => exact scheduleInv_frames.readTransaction hs h
  | resetPartDeadline _ => exact scheduleInv_frames.resetPartDeadline hs h
  | resetMap _ => exact hs.resetMap h
  | writePlanEntry _ => exact hs.writePlanEntry h
  | clearPlan _ => exact hs.clearPlan h
  | commitPlan _ => exact hs.commitPlanCommand h
  | setRoundInterval _ => exact hs.setRoundInterval h
  | setWatch _ => exact hs.setWatch h
  | readSchedule _ => exact hs.readSchedule h
  | calibrate _ => exact hs.calibrate h
  | calibrateRevert _ => exact hs.calibrateRevert h
  | writeCorrection _ => exact hs.writeCorrection h
  | setTracking _ => exact hs.setTracking h
  | restartTracker _ => exact hs.restartTracker h
  | setAveraging _ => exact hs.setAveraging h
  | setMargin _ => exact hs.setMargin h
  | setWeights _ => exact hs.setWeights h
  | setBarTime _ => exact hs.setBarTime h
  | barChannel _ => exact hs.barChannelCommand h
  | unbar _ => exact hs.unbar h
  | ready _ _ => exact scheduleInv_frames.senseEvent (scheduleInv_sweep.readyRecord _) hs h
  | burst _ _ _ _ _ _ _ => exact scheduleInv_frames.senseEvent ScheduleInv.burstRecord hs h
  | close _ _ _ _ => exact scheduleInv_frames.senseEvent (scheduleInv_sweep.closeRecord _ _) hs h
  | dwellEnd _ => exact scheduleInv_sweep.dwellEnd scheduleInv_frames hs h
  | tuneTimeout _ => exact scheduleInv_sweep.tuneTimeout scheduleInv_frames hs h
  | closeWaitExpiry _ => exact scheduleInv_sweep.closeWaitExpiry scheduleInv_frames hs h
  | faultRetry _ => exact hs.faultRetry h
  | roundDue _ => exact scheduleInv_frames.event (fun hu => hu.startRoundIfDue.wakeIfParked) hs h
  | watchDue _ => exact hs.watchDue h
  | emptyPlanTimer _ =>
    exact scheduleInv_sweep.emptyPlanTimer scheduleInv_frames (fun _ _ hu => hu.withSsc hu.plans hu.parked) hs h
  | senseResyncClear _ => exact hs.senseResyncClear h
  | searchTimeout _ _ => exact hs.searchTimeout h
  | holdoverExpiry _ _ => exact hs.holdoverExpiry h
  | barClockTick _ => exact hs.barClockTick h
  | radarBarExpiry _ _ => exact hs.radarBarExpiry h
  | radar _ _ _ => exact hs.radar h
  | _ => exact (hframe rfl).elim

end Ops

/-- Settles O10: an entry is stored on a permitted channel with a clamped length, settings are clamped and rounded, and the
line becomes parked by PARK alone, which leaves no current dwell. -/
theorem stepKeepsSchedule : Obligations.StepKeepsSchedule := by
  unfold Obligations.StepKeepsSchedule
  exact fun _ _ hs h => scheduleInv_frames.step ScheduleInv.exec hs h

/-! ## After reset -/

/-- Settles O12: the reset values meet each invariant, and the first TUNE changes the schedule alone, to a line that is not
parked. -/
theorem resetMeetsInvariants : Obligations.ResetMeetsInvariants := by
  unfold Obligations.ResetMeetsInvariants
  have hfirst : touchesOnly [.ssc] (State.start .powerOn 0 0 0 (fun _ => 0) [] []) State.reset := withSsc_touches _ _
  have hsched := ScheduleInv.start .powerOn 0 0 0 (fun _ => 0) [] []
  refine ⟨eventsInv_reads.quiet (EventsInv.start _ _ _ _ _ _ _) hfirst,
    silenceInv_reads.quiet (SilenceInv.start _ _ _ _ _ _ _) hfirst,
    tableInv_reads.quiet (s := State.start .powerOn 0 0 0 (fun _ => 0) [] []) TableOk.nil hfirst,
    gateInv_reads.quiet (GateInv.start _ _ _ _ _ _ _) hfirst,
    mapInv_reads.quiet (MapInv.start _ _ _ _ _ _ fun _ => by decide) hfirst,
    trackerInv_reads.quiet (TrackerInv.start _ _ _ _ _ _ _) hfirst,
    hsched.withSsc hsched.plans LineState.noConfusion,
    plannerInv_reads.quiet (PlannerInv.start _ _ _ _ _ _ _) hfirst⟩

end Sys2Proof.Machine
end

section
/-! Resets (chapter 9): a full reset in force, the start instant, RESET PART and what carries it out, RESET MAP. -/

namespace Sys2Proof.Machine

set_option Elab.async false

/-! ## A host command carried out -/

/-- R188: what a command that is carried out leaves, and its answer. -/
theorem handle_of_okay {s u : State} {t : AT} {code : Byte} {k n : Nat} {p out : List Byte}
    {body : List Byte → State → (Code × List Byte) × State} (h : s.inHandIs code p) (hk : code.toNat = k)
    (hn : n ≤ p.length) (hb : body p (s.withNow t) = okay out u) :
    handle k n t s body
      = .next (u.withHost { u.host with inHand := none, response := some ⟨.ok, code, out⟩ }) := by
  rw [handle_hand h hk hn, hb]
  rfl

/-! ## A full reset in force -/

theorem fullReset_holds (p : Bool) (s : State) : ∃ t, exec (.fullReset p) s = .next t
    ∧ t.phase = .inReset (if p then .powerOn else match s.phase with
        | .running => .resetLine
        | .inReset c => c)
    ∧ t.events.set = [] ∧ t.events.attn = false ∧ t.host.inHand = none ∧ t.host.response = none
    ∧ t.host.resetPending = none ∧ t.host.reading = none ∧ t.pending = s.pending :=
  ⟨_, rfl, rfl, rfl, rfl, rfl, rfl, rfl, rfl, rfl⟩

section InReset

variable {s : State} {t : AT} {cause : StartCause}

theorem handle_inReset {k n : Nat} {body : List Byte → State → (Code × List Byte) × State}
    (h : s.phase = .inReset cause) : handle k n t s body = .next s :=
  event_inReset h

theorem senseEvent_inReset {body : State → State} (h : s.phase = .inReset cause) : senseEvent t s body = .next s :=
  event_inReset h

theorem radioEvent_inReset {r : Radio} {body : State → State} (h : s.phase = .inReset cause) :
    radioEvent t r s body = .next s :=
  event_inReset h

end InReset

/-- R199: while a full reset is in force only its end and a further one have an effect. -/
theorem exec_inReset {c : Instr} {s : State} {cause : StartCause} (h : s.phase = .inReset cause)
    (hfull : ∀ p, c ≠ .fullReset p) (hstart : ∀ d m, c ≠ .startInstant d m) : exec c s = .next s := by
  cases c with
  | fullReset p => exact absurd rfl (hfull p)
  | startInstant d m => exact absurd rfl (hstart d m)
  | calibrateRevert now =>
    show execCalibrateRevert now s = .next s
    unfold execCalibrateRevert
    split
    · exact event_inReset h
    · exact event_inReset h
  | readIdentity _ | readStatus _ | resetPart _ | resetMap _ | setHostSilence _ | readEvents _ | setEventMask _
  | writePlanEntry _ | clearPlan _ | commitPlan _ | readPlan _ | setRoundInterval _ | setWatch _
  | readSchedule _ | calibrate _ | writeCorrection _ | readCalibration _ | readIntake _ | setTracking _
  | setTracker _ | restartTracker _ | readTracker _ | readChannel _ | readMap _ | setAveraging _ | setMargin _
  | setWeights _ | setBarTime _ | barChannel _ | unbar _ | readNeighbours _ | markFriendly _
  | setNeighbourAge _ | setPlanner _ | setRadio _ | setChannel _ | acceptProposal _ | clearHold _
  | readPlanner _ | setGate _ | setExclusion _ | setLatency _ | readGate _ | readGrants _ | setSilence _
  | readLink _ =>
    rw [exec]
    exact handle_inReset h
  | ready _ _ | burst _ _ _ _ _ _ _ | close _ _ _ _ =>
    rw [exec]
    exact senseEvent_inReset h
  | status _ _ _ _ | airRequest _ _ _ _ _ _ _ | airEnd _ _ _ _ | overheard _ _ _ _ _ _ | radar _ _ _ | switched _ _ _ =>
    rw [exec]
    exact radioEvent_inReset h
  | _ =>
    rw [exec]
    exact event_inReset h

/-- Settles O13: FULL_RESET leaves the state of a reset in force, in which the frame of every other command but the start
instant does nothing. -/
theorem fullResetHoldsNothing : Obligations.FullResetHoldsNothing := by
  unfold Obligations.FullResetHoldsNothing
  exact ⟨fullReset_holds, fun _ _ _ => exec_inReset⟩

/-! ## Work begun -/

/-- R23: index 0 is permitted in every domain, so it heads the default plan. -/
theorem defaultChans_head (dom : BitVec 2) : ∃ rest, defaultChans dom = 0 :: rest := by
  have hperm : permittedIn dom 0 = true := by
    unfold permittedIn
    split <;> rfl
  have hall : allChans = 0 :: allChans.tail := rfl
  refine ⟨allChans.tail.filter fun c => bandOf c = .ghz24 && permittedIn dom c, ?_⟩
  unfold defaultChans
  rw [hall, List.filter_cons_of_pos]
  · rfl
  · rw [hperm]
    rfl

theorem defaultChans_eq (dom : BitVec 2) :
    defaultChans dom = allChans.filter fun c => c.val ≤ 12 && permittedIn dom c := by
  have hband (c : Chan) : decide (bandOf c = .ghz24) = decide (c.val ≤ 12) := by
    unfold bandOf
    split <;> simp_all
  simp only [defaultChans, hband]

section BeginWork

variable (cause : StartCause) (dom mains : BitVec 2) (id : Byte) (corr : Chan → Int) (out : List Byte) (q : List Instr)

/-- R202: the first boundary finds the round of the default plan in progress, and orders its first entry. -/
theorem beginWork_eq : beginWork cause dom mains id corr out q
    = (State.start cause dom mains id corr out q).withSsc (Ssc.start dom id).afterFirstTune := by
  obtain ⟨rest, hrest⟩ := defaultChans_head dom
  have hchoice : chooseOrder (State.start cause dom mains id corr out q) = .sweep ⟨0, 40⟩ := by
    show otherChoice (Ssc.start dom id) = _
    simp [otherChoice, Ssc.start, hrest, entriesLeft]
  show sendOrder (chooseOrder (State.start cause dom mains id corr out q)) _ = _
  rw [hchoice]
  rfl

theorem beginWork_begunWork : begunWork cause dom mains id (beginWork cause dom mains id corr out q) := by
  rw [beginWork_eq]
  have hplan : (defaultChans dom).map (⟨·, 40⟩ : Chan → PlanEntry)
      = (allChans.filter fun c => c.val ≤ 12 && permittedIn dom c).map (⟨·, 40⟩) := by rw [defaultChans_eq]
  have hchan (c : Chan) : ((State.start cause dom mains id corr out q).withSsc
      (Ssc.start dom id).afterFirstTune).chan c = ChannelRecord.start (permittedIn dom c) (corr c) := chanTable_get _ c
  have hmask (k : EventKind) : enabledIn (BitVec.allOnes 25) k = true := by cases k <;> decide
  refine ⟨rfl, rfl, rfl, rfl, rfl, rfl, rfl, rfl, rfl, rfl, rfl, rfl, rfl, hplan, rfl, rfl, rfl, rfl, rfl, rfl, rfl, rfl,
    rfl, rfl, rfl, rfl, rfl, rfl, rfl, rfl, rfl, rfl, fun k => by cases k <;> rfl, rfl, fun c => ?_, rfl, rfl, rfl, rfl,
    rfl, rfl, rfl, rfl, rfl, fun r => by cases r <;> rfl, rfl, rfl, rfl, rfl, rfl, fun r => by cases r <;> rfl,
    fun b => by cases b <;> rfl, rfl, fun r => by cases r <;> rfl, rfl, hmask, rfl⟩
  rw [hchan]
  rfl

theorem beginWork_correction (c : Chan) : ((beginWork cause dom mains id corr out q).chan c).correction = corr c := by
  rw [beginWork_eq]
  exact congrArg ChannelRecord.correction (chanTable_get _ c)

theorem beginWork_host : (beginWork cause dom mains id corr out q).host = HostPort.start cause dom mains out := by
  rw [beginWork_eq]
  rfl

end BeginWork

/-- Settles O14: the start instant is `beginWork` with the straps latched, and nothing while the part runs. -/
theorem startInstantBeginsWork : Obligations.StartInstantBeginsWork := by
  unfold Obligations.StartInstantBeginsWork
  refine ⟨fun dom mains cause s h => ?_, fun dom mains s h => ?_⟩
  · refine ⟨beginWork cause dom mains 0 (fun _ => 0) [] s.pending, ?_, beginWork_begunWork _ _ _ _ _ _ _,
      beginWork_correction _ _ _ _ _ _ _, beginWork_pending _ _ _ _ _ _ _⟩
    show execStartInstant dom mains s = _
    rw [execStartInstant, h]
  · show execStartInstant dom mains s = _
    rw [execStartInstant, h]

/-! ## RESET PART carried out -/

/-- R198: what the reset of RESET PART leaves. -/
def RestartedFrom (s t : State) : Prop :=
  begunWork .hostReset s.host.dom s.host.mains s.ssc.nextId t
  ∧ (∀ c, (t.chan c).correction = (s.chan c).correction) ∧ t.pending = s.pending

theorem resetPartNow_restarted (s : State) : RestartedFrom s (resetPartNow s) := by
  refine ⟨?_, beginWork_correction _ _ _ _ _ _ _, beginWork_pending _ _ _ _ _ _ _⟩
  exact beginWork_begunWork .hostReset s.host.dom s.host.mains s.ssc.nextId _ s.host.shiftedOut s.pending

theorem resetPartNow_reading (s : State) : (resetPartNow s).host.reading = s.host.reading := rfl

theorem resetPartNow_shiftedOut (s : State) : (resetPartNow s).host.shiftedOut = s.host.shiftedOut := by
  show (beginWork _ _ _ _ _ _ _).host.shiftedOut = _
  rw [beginWork_host]
  rfl

/-! ## What a read shifts out -/

theorem readBytes_length (extra : Nat) (frame : List Byte) : (readBytes extra frame).length = extra := by
  rw [readBytes, List.length_append, List.length_take, List.length_replicate]
  omega

theorem readBytes_zero (frame : List Byte) : readBytes 0 frame = [] :=
  List.eq_nil_of_length_eq_zero (readBytes_length 0 frame)

theorem readBytes_getElem? {extra i : Nat} (frame : List Byte) (hi : i < extra) :
    (readBytes extra frame)[i]? = some (frame.getD i 0) := by
  rw [readBytes]
  rcases Nat.lt_or_ge i frame.length with h | h
  · rw [List.getElem?_append_left (by rw [List.length_take]; omega), List.getElem?_take_of_lt hi]
    simp [h]
  · rw [List.getElem?_append_right (by rw [List.length_take]; omega), List.length_take, List.getElem?_replicate,
      if_pos (by omega), List.getD_eq_default _ _ h]

/-- R185, R189: 00h, then the frame, then 00h. -/
theorem shiftsOut_readBytes (extra : Nat) (frame : List Byte) : shiftsOut extra frame (0 :: readBytes extra frame) := by
  refine ⟨by rw [List.length_cons, readBytes_length], rfl, fun i hi => ?_⟩
  rw [List.getElem?_cons_succ]
  exact readBytes_getElem? frame hi

/-- R189: the response as it stands: the ready one, or NOT READY with the code of the command in hand. -/
def standingFrame (h : HostPort) : List Byte :=
  match h.response, h.inHand with
  | some r, _ => [BitVec.ofNat 8 r.code.code, r.command, BitVec.ofNat 8 r.payload.length] ++ r.payload
  | none, some c => [0x80, c.code, 0x00]
  | none, none => [0x80, 0x00, 0x00]

theorem responseFrame_eq_standingFrame (h : HostPort) : responseFrame h = standingFrame h := by
  unfold responseFrame standingFrame
  cases h.response <;> cases h.inHand <;> rfl

/-! ## The deselection of a read -/

section Read

variable {s : State} {frame : List Byte} {ok : Bool}

/-- The read transaction under way, or the one taken whole at its deselection. -/
theorem getD_readingNow (h : s.host.reading = some ⟨frame, ok⟩
      ∨ (s.host.reading = none ∧ frame = standingFrame s.host ∧ ok = s.host.resetPending.isSome)) :
    s.host.reading.getD (readingNow s.host) = ⟨frame, ok⟩ := by
  rcases h with h | ⟨h, rfl, rfl⟩
  · rw [h]
    rfl
  · rw [h, ← responseFrame_eq_standingFrame]
    rfl

/-- R189: a read that resets nothing: its frame is shifted out and the transaction is over. -/
theorem readResponse_of_not_ok (extra : Nat) (h : s.host.reading.getD (readingNow s.host) = ⟨frame, ok⟩)
    (hno : ¬ (ok = true ∧ s.host.resetPending.isSome = true ∧ 1 ≤ extra)) : readResponse extra s
      = s.withHost { s.host with reading := none, shiftedOut := 0 :: readBytes extra frame } := by
  unfold readResponse
  rw [h]
  simp only [Bool.and_eq_true, decide_eq_true_eq, and_assoc, if_neg hno]

/-- R197: a read of the pending OK resets the part. -/
theorem readResponse_of_ok {extra : Nat} (h : s.host.reading.getD (readingNow s.host) = ⟨frame, true⟩)
    (hp : s.host.resetPending.isSome = true) (hx : 1 ≤ extra) : readResponse extra s
      = resetPartNow (s.withHost { s.host with reading := none, shiftedOut := 0 :: readBytes extra frame }) := by
  unfold readResponse
  rw [h]
  simp [hp, hx]

end Read

theorem exec_deselection {s : State} (now : AT) (extra : Nat) (h : s.phase = .running) :
    exec (.readTransaction now (.deselection extra)) s = .next (readResponse extra (s.withNow now)) :=
  event_running h

theorem resetPart_read {s : State} {deadline : AT} (now : AT) {extra : Nat} {frame : List Byte} {ok : Bool}
    (hrun : s.phase = .running) (hp : s.host.resetPending = some deadline)
    (h : s.host.reading = some ⟨frame, ok⟩ ∨ (s.host.reading = none ∧ frame = standingFrame s.host ∧ ok = true)) :
    (ok = true → 1 ≤ extra → ∃ t, exec (.readTransaction now (.deselection extra)) s = .next t ∧ RestartedFrom s t
      ∧ t.host.reading = none ∧ shiftsOut extra frame t.host.shiftedOut)
    ∧ (ok = false → ∃ out, shiftsOut extra frame out ∧ exec (.readTransaction now (.deselection extra)) s
      = .next { s with now, host := { s.host with reading := none, shiftedOut := out } }) := by
  have hsome : s.host.resetPending.isSome = true := by rw [hp]; rfl
  have hget : (s.withNow now).host.reading.getD (readingNow (s.withNow now).host) = ⟨frame, ok⟩ :=
    getD_readingNow (by rw [State.withNow_host, hsome]; exact h)
  rw [exec_deselection now extra hrun]
  refine ⟨fun hok hx => ?_, fun hok => ?_⟩
  · subst hok
    rw [readResponse_of_ok hget hsome hx]
    refine ⟨_, rfl, resetPartNow_restarted _, resetPartNow_reading _, ?_⟩
    rw [resetPartNow_shiftedOut]
    exact shiftsOut_readBytes extra frame
  · refine ⟨_, shiftsOut_readBytes extra frame, ?_⟩
    rw [readResponse_of_not_ok extra hget (by rw [hok]; exact fun h => Bool.noConfusion h.1)]
    rfl

/-- Settles O15: each of the two rows is `resetPartNow`, which begins work with the corrections, the straps and the dwell id
counter it found. -/
theorem resetPartCarriedOut : Obligations.ResetPartCarriedOut := by
  unfold Obligations.ResetPartCarriedOut
  intro now deadline extra s hrun hp
  have hdeadline : exec (.resetPartDeadline now) s
      = .next (if reached deadline now then resetPartNow (s.withNow now) else s.withNow now) := by
    show execResetPartDeadline now s = _
    rw [execResetPartDeadline, event_running hrun]
    simp only [State.withNow_host, hp]
    rfl
  refine ⟨fun frame ok h => resetPart_read now hrun hp h, ?_, fun hdue => ?_, fun hnot => ?_⟩
  · rw [exec_deselection now 0 hrun, readResponse_of_not_ok 0 rfl (by omega), readBytes_zero]
    rfl
  · rw [hdeadline, if_pos (show reached deadline now = true from decide_eq_true hdue)]
    exact ⟨_, rfl, resetPartNow_restarted _, resetPartNow_reading _, resetPartNow_shiftedOut _⟩
  · rw [hdeadline, if_neg (by simp only [reached, decide_eq_true_eq]; omega)]

/-! ## The commands -/

/-- Settles O16: RESET PART sets its deadline; RESET MAP resets each channel record, empties the table and drops the
plans. -/
theorem resetCommands : Obligations.ResetCommands := by
  unfold Obligations.ResetCommands
  refine fun now p s => ⟨fun h => ?_, fun h => ?_⟩
  · rw [exec, execResetPart]
    exact (handle_hand h rfl (Nat.zero_le _)).trans rfl
  · have ht := handle_of_okay (t := now) (n := 0) h rfl (Nat.zero_le _)
      (body := fun _ s => okay [] (resetPlans (resetTable (resetMapRecords s)))) rfl
    refine ⟨_, ht, fun c => ?_, rfl, rfl, fun r => ?_, rfl, rfl, exec_touches (c := .resetMap now) ht⟩
    · exact chanTable_get _ c
    · cases r <;> rfl

end Sys2Proof.Machine
end

section
/-! The host port (chapter 9): transactions, refused commands, the host-silence expiry; and the commands of the event unit
(chapter 10). -/

namespace Sys2Proof.Machine

set_option Elab.async false

/-! ## Transactions -/

/-- R185: a transaction whose first byte is not FFh is a write transaction, and 00h is shifted out on every byte. -/
theorem exec_writeTransaction {s : State} (now : AT) {code : Byte} (rest : List Byte) (hrun : s.phase = .running)
    (hcode : code ≠ 0xFF) : exec (.writeTransaction now (code :: rest)) s = .next ((s.withNow now).withHost
      { writeFrame now (code :: rest) s.host with shiftedOut := List.replicate (rest.length + 1) 0 }) := by
  rw [exec, execWriteTransaction, event_running hrun]
  simp only [if_neg (show ¬ code = 255#8 from hcode)]
  rfl

section WriteFrame

variable {h : HostPort} {now : AT} {code len : Byte} {payload : List Byte}

theorem writeFrame_of_taken (hlen : payload.length = len.toNat) (hin : h.inHand = none) (hp : h.resetPending = none) :
    writeFrame now (code :: len :: payload) h = { restartHostTimer now h with
      inHand := some ⟨code, payload, now⟩, response := none, taken := satInc Config.countMax h.taken } := by
  simp only [writeFrame, if_pos hlen, takeFrame, hin, hp]
  rfl

theorem writeFrame_of_overrun (hlen : payload.length = len.toNat) (hbusy : h.inHand ≠ none ∨ h.resetPending ≠ none) :
    writeFrame now (code :: len :: payload) h
      = { restartHostTimer now h with overruns := satInc Config.countMax h.overruns } := by
  have hb : (h.inHand.isSome || h.resetPending.isSome) = true := by
    rw [Bool.or_eq_true, Option.isSome_iff_ne_none, Option.isSome_iff_ne_none]
    exact hbusy
  simp only [writeFrame, if_pos hlen, takeFrame, hb]
  rfl

theorem writeFrame_of_malformed (hlen : payload.length ≠ len.toNat) : writeFrame now (code :: len :: payload) h
      = { h with frameErrors := satInc Config.countMax h.frameErrors } := by
  simp only [writeFrame, if_neg hlen]

end WriteFrame

/-- Settles O17: the frame's three outcomes; a transaction that starts with FFh is a read. -/
theorem writeTransactionTakesFrame : Obligations.WriteTransactionTakesFrame := by
  unfold Obligations.WriteTransactionTakesFrame
  intro now code len payload s hrun hcode timer
  refine ⟨fun hlen hin hp => ?_, fun hlen hbusy => ?_, fun hlen => ?_, ?_, ?_, ?_⟩
  · rw [exec_writeTransaction now _ hrun hcode, writeFrame_of_taken hlen hin hp]
    rfl
  · rw [exec_writeTransaction now _ hrun hcode, writeFrame_of_overrun hlen hbusy]
    rfl
  · rw [exec_writeTransaction now _ hrun hcode, writeFrame_of_malformed hlen]
    rfl
  · rw [exec_writeTransaction now _ hrun hcode]
    rfl
  · rw [exec, execWriteTransaction]
    exact event_running hrun
  · rw [exec_deselection now _ hrun, exec, execWriteTransaction, event_running hrun]
    rfl

/-- Settles O18: the first byte fixes the frame, and the deselection shifts it out; without a RESET PART pending it resets
nothing. -/
theorem readTransactionShiftsOutResponse : Obligations.ReadTransactionShiftsOutResponse := by
  unfold Obligations.ReadTransactionShiftsOutResponse
  intro now extra s hrun standing
  have hstanding : responseFrame s.host = standing := responseFrame_eq_standingFrame s.host
  refine ⟨?_, fun frame hread hp => ⟨0 :: readBytes extra frame, ?_, shiftsOut_readBytes extra frame⟩⟩
  · rw [← hstanding]
    exact event_running hrun
  · obtain ⟨ok, hget⟩ : ∃ ok, (s.withNow now).host.reading.getD (readingNow (s.withNow now).host) = ⟨frame, ok⟩ := by
      rcases hread with ⟨ok, h⟩ | ⟨h, hf⟩
      · exact ⟨ok, getD_readingNow (.inl h)⟩
      · exact ⟨_, getD_readingNow (.inr ⟨h, hf, rfl⟩)⟩
    have hno : ¬ (ok = true ∧ (s.withNow now).host.resetPending.isSome = true ∧ 1 ≤ extra) := by simp [hp]
    rw [exec_deselection now extra hrun, readResponse_of_not_ok extra hget hno]
    rfl

/-! ## Refused commands -/

/-- The row's command answers BAD_ARGUMENT to a payload shorter than its arguments. -/
def RefusesShort (row : Byte × Nat × (AT → Instr)) : Prop :=
  ∀ (now : AT) (s : State) (p : List Byte), p.length < row.2.1 → s.inHandIs row.1 p →
    exec (row.2.2 now) s = .next (s.answered now row.1 .badArgument [])

/-- A row whose command stands in the frame of a host command. -/
theorem refusesShort_of_handle {code : Byte} {n k : Nat} {i : AT → Instr}
    {body : List Byte → State → (Code × List Byte) × State} (hk : code.toNat = k)
    (hi : ∀ now s, exec (i now) s = handle k n now s body) : RefusesShort (code, n, i) := by
  intro now s p hp hin
  exact (hi now s).trans (handle_short hin hk hp)

/-- R40: the row of CALIBRATE REVERT takes a short CALIBRATE frame as well (log entry 7). -/
theorem refusesShort_calibrateRevert : RefusesShort (0x20, 6, .calibrateRevert) := by
  intro now s p hp hin
  obtain ⟨c, hc, hcode, hpay⟩ : ∃ c, s.host.inHand = some c ∧ c.code = 0x20 ∧ c.payload = p := by
    obtain ⟨c, hc, heq⟩ := Option.map_eq_some_iff.mp hin.2
    exact ⟨c, hc, congrArg Prod.fst heq, congrArg Prod.snd heq⟩
  have hany : (s.host.inHand.any fun c => c.payload.length < 6 || calModeOf (arg c.payload 5) = some .revert) = true := by
    simp only [hc, Option.any_some, hpay, Bool.or_eq_true, decide_eq_true_eq]
    exact .inl hp
  show execCalibrateRevert now s = _
  rw [execCalibrateRevert, if_pos hany]
  exact handle_short hin rfl hp

theorem catalogueRows_refuseShort : ∀ row ∈ catalogueRows, RefusesShort row := by
  simp only [catalogueRows, List.cons_append, List.nil_append, List.forall_mem_cons]
  and_intros
  pick_goal 48
  · exact List.forall_mem_nil _
  pick_goal 16
  · exact refusesShort_calibrateRevert
  all_goals
    apply refusesShort_of_handle rfl
    intro now s
    rw [exec]
    rfl

/-- R190: every code of the catalogue has a row. -/
theorem exists_row_of_mem_catalogue : ∀ n ∈ catalogue, ∃ row ∈ catalogueRows, row.1.toNat = n := by decide

theorem unknownCommand_answered {s : State} {now : AT} {code : Byte} {p : List Byte}
    (hcode : ∀ row ∈ catalogueRows, row.1 ≠ code) (hin : s.inHandIs code p) :
    exec (.unknownCommand now) s = .next (s.answered now code .unknownCommand []) := by
  obtain ⟨hrun, hmap⟩ := hin
  obtain ⟨c, hc, heq⟩ := Option.map_eq_some_iff.mp hmap
  obtain rfl : c.code = code := congrArg Prod.fst heq
  have hnot : catalogue.contains c.code.toNat = false := by
    rw [List.contains_eq_mem, decide_eq_false_iff_not]
    intro hm
    obtain ⟨row, hrow, hn⟩ := exists_row_of_mem_catalogue _ hm
    exact hcode row hrow (BitVec.eq_of_toNat_eq hn)
  rw [exec, execUnknownCommand, event_running hrun]
  simp only [State.withNow_host, hc, hnot]
  rfl

/-- Settles O19: each row's command refuses a short payload in the frame of host commands; an unlisted code is not of the
catalogue. -/
theorem shortOrUnknownCommandRefused : Obligations.ShortOrUnknownCommandRefused := by
  unfold Obligations.ShortOrUnknownCommandRefused
  exact ⟨fun now s p row hrow => catalogueRows_refuseShort row hrow now s p,
    fun now s code p => unknownCommand_answered⟩

/-! ## Host silence -/

/-- R128, R109: the mode set at the expiry, with the proposals withdrawn when it changes. -/
def State.inMode (m : PlanMode) (u : State) : State :=
  { u with cpl := { u.cpl with
    mode := m
    records := if u.cpl.mode = m then u.cpl.records
      else ⟨{ u.cpl.records.r0 with proposal := none }, { u.cpl.records.r1 with proposal := none }⟩ } }

theorem setMode_eq_inMode {m : PlanMode} (hm : m ≠ .advise) (u : State) : setMode m u = u.inMode m := by
  by_cases h : m = u.cpl.mode
  · rw [setMode, if_pos h]
    subst h
    simp only [State.inMode, if_true]
  · rw [setMode, if_neg h, State.inMode, if_neg (Ne.symm h), if_neg hm]
    rfl

/-- R129: the conditions of a default order: radio `r`, now on `cur`, may be ordered to its default channel `d`. -/
def MeetsDefault (u : State) (r : Radio) (d cur : Chan) : Prop :=
  (u.record r).defaultChan = some d ∧ (u.link r).chan = some cur ∧ gateServes (u.gate r) = true
  ∧ (u.record r).inFlight = none ∧ eligible u r d = true ∧ d ≠ cur

section DefaultOrder

variable {u : State} {r : Radio} {d cur : Chan}

theorem defaultOrder_of_meets (h : MeetsDefault u r d cur) : defaultOrder r u
    = (u.setLink r { u.link r with sent := (u.link r).sent ++ [.switch d (u.record r).announce] }).setRecord r
        { u.record r with
          sustain := 0, candidate := none, proposal := none, holding := false
          inFlight := some ⟨d, (u.record r).announce, orderDeadline u.now (u.record r).announce, .defaults, cur⟩ } := by
  obtain ⟨hdef, hchan, hgate, hfree, helig, hne⟩ := h
  have hcond : (gateServes (u.gate r) && (u.record r).inFlight.isNone && eligible u r d && decide (d ≠ cur)) = true := by
    simp [hgate, hfree, helig, hne]
  have hordered : defaultOrder r u = (switchOrder r cur d (u.record r).announce .defaults u).setRecord r
      { (switchOrder r cur d (u.record r).announce .defaults u).record r with holding := false } := by
    rw [defaultOrder, hdef, hchan]
    exact if_pos hcond
  rw [hordered]
  cases r <;> rfl

theorem defaultOrder_of_not_meets (h : ∀ d cur, ¬ MeetsDefault u r d cur) : defaultOrder r u = u := by
  unfold defaultOrder
  split
  · next d cur hdef hchan =>
    split
    · next hcond =>
      simp only [Bool.and_eq_true, Option.isNone_iff_eq_none, decide_eq_true_eq, and_assoc] at hcond
      exact absurd ⟨hdef, hchan, hcond⟩ (h d cur)
    · rfl
  · rfl

theorem defaultOrder_now : (defaultOrder r u).now = u.now := (defaultOrder_touches r u .now (by decide)).symm

end DefaultOrder

/-! ### The action -/

theorem silenceAction_of_keep {u : State} (h : u.cpl.action = .keep) :
    silenceAction u = raise .hostSilent u.cpl.action.code u := by
  simp only [silenceAction, h]

theorem silenceAction_of_auto {u : State} (h : u.cpl.action = .auto) :
    silenceAction u = setMode .auto (raise .hostSilent u.cpl.action.code u) := by
  simp only [silenceAction, h]

theorem silenceAction_of_defaults {u : State} (h : u.cpl.action = .defaults) : silenceAction u
    = setMode .fixed (defaultOrder .r1 (defaultOrder .r0 (raise .hostSilent u.cpl.action.code u))) := by
  simp only [silenceAction, h]

theorem exec_hostSilenceExpiry {s : State} {now e : AT} (hrun : s.phase = .running) (he : s.host.timer = some e) :
    exec (.hostSilenceExpiry now) s = .next (if reached e now then
      silenceAction ((s.withNow now).withHost { s.host with timer := none }) else s.withNow now) := by
  rw [exec, execHostSilenceExpiry, event_running hrun]
  simp only [State.withNow_host, he]
  rfl

/-- Settles O21: the action is KEEP, a mode, or under DEFAULTS the two orders, radio 0 first, and then the mode. -/
theorem hostSilenceExpires : Obligations.HostSilenceExpires := by
  unfold Obligations.HostSilenceExpires
  intro now s hrun
  refine ⟨fun e he hdue => ?_, fun e he hnot => ?_, fun hnone => ?_⟩
  · rw [exec_hostSilenceExpiry hrun he, if_pos (show reached e now = true from decide_eq_true hdue)]
    refine ⟨fun ha => ?_, fun ha => ?_, fun ha => ?_⟩
    · exact congrArg _ (silenceAction_of_keep (by exact ha))
    · exact congrArg _ ((silenceAction_of_auto (by exact ha)).trans (setMode_eq_inMode PlanMode.noConfusion _))
    · refine ⟨_, _, ⟨fun d cur h => ?_, defaultOrder_of_not_meets⟩, ⟨fun d cur h => ?_, defaultOrder_of_not_meets⟩,
        congrArg _ ((silenceAction_of_defaults (by exact ha)).trans (setMode_eq_inMode PlanMode.noConfusion _))⟩
      · exact defaultOrder_of_meets h
      · refine (defaultOrder_of_meets h).trans ?_
        rw [orderDeadline, defaultOrder_now]
        rfl
  · rw [exec_hostSilenceExpiry hrun he, if_neg (by simp only [reached, decide_eq_true_eq]; omega)]
  · rw [exec, execHostSilenceExpiry, event_running hrun]
    simp only [State.withNow_host, hnone]

/-! ## The event unit's commands -/

/-- R184: the low 25 of the four bytes of an event mask, as they are answered. -/
theorem b4_setWidth (a b c d : Byte) : b4 ((a ++ b ++ c ++ d : BitVec 32).setWidth 25).toNat = [a &&& 0x01, b, c, d] := by
  have ha := a.isLt
  have hb := b.isLt
  have hc := c.isLt
  have hd := d.isLt
  have hcat : (a ++ b ++ c ++ d : BitVec 32).toNat
      = 16777216 * a.toNat + 65536 * b.toNat + 256 * c.toNat + d.toNat := by
    simp only [BitVec.toNat_append]
    rw [← Nat.shiftLeft_add_eq_or_of_lt hd, ← Nat.shiftLeft_add_eq_or_of_lt hc, ← Nat.shiftLeft_add_eq_or_of_lt hb]
    simp only [Nat.shiftLeft_eq]
    omega
  have hand : (a &&& 0x01).toNat = a.toNat % 2 := by
    rw [BitVec.toNat_and]
    exact Nat.and_one_is_mod _
  rw [BitVec.toNat_setWidth, hcat, b4]
  congr 1
  · apply BitVec.eq_of_toNat_eq
    rw [hand, BitVec.toNat_ofNat]
    omega
  · congr 1
    · apply BitVec.eq_of_toNat_eq
      rw [BitVec.toNat_ofNat]
      omega
    · congr 1
      · apply BitVec.eq_of_toNat_eq
        rw [BitVec.toNat_ofNat]
        omega
      · congr 1
        apply BitVec.eq_of_toNat_eq
        rw [BitVec.toNat_ofNat]
        omega

/-- Settles O23: the two commands carried out, with the answered mask byte by byte. -/
theorem eventCommands : Obligations.EventCommands := by
  unfold Obligations.EventCommands
  refine fun now s => ⟨fun p h => ?_, fun a b c d rest h => ?_⟩
  · rw [exec, execReadEvents]
    exact (handle_hand h rfl (Nat.zero_le _)).trans rfl
  · rw [← b4_setWidth, exec, execSetEventMask]
    exact (handle_hand h rfl (by simp)).trans rfl

end Sys2Proof.Machine
end

section
/-! The schedule's commands and the arbiter (chapter 1): the pending plan, the interval and the watch interval, what is ordered
at a boundary and at a retry. -/

namespace Sys2Proof.Machine

set_option Elab.async false

/-! ## A command that wakes a parked front end -/

/-- R188, R19: a command whose effect may wake a parked front end answers, and the waking follows its other effects. -/
theorem handle_of_okay_wake {s u : State} {t : AT} {code : Byte} {k n : Nat} {p out : List Byte}
    {body : List Byte → State → (Code × List Byte) × State} (h : s.inHandIs code p) (hk : code.toNat = k)
    (hn : n ≤ p.length) (hb : body p (s.withNow t) = okay out (wakeIfParked u)) :
    handle k n t s body
      = .next (wakeIfParked (u.withHost { u.host with inHand := none, response := some ⟨.ok, code, out⟩ })) := by
  rw [handle_hand h hk hn, hb]
  exact congrArg _ (answer_wakeIfParked _ _ _)

section Wakes

variable {s : State} {t : AT} {code : Byte} {k n : Nat} {p out : List Byte}
  {body : List Byte → State → (Code × List Byte) × State} {x : Ssc}

/-- R19: a command whose other effect is a schedule `x`. -/
theorem handle_wakes_withSsc (h : s.inHandIs code p) (hk : code.toNat = k) (hn : n ≤ p.length)
    (hb : body p (s.withNow t) = okay out (wakeIfParked ((s.withNow t).withSsc x))) :
    ∃ u, handle k n t s body = .next u ∧ { s.answered t code .ok out with ssc := x }.wakesTo u :=
  ⟨_, handle_of_okay_wake h hk hn hb, wakeIfParked_wakes _⟩

/-- R3, R19: a command whose other effects are a schedule `x` and an event. -/
theorem handle_wakes_raise {e : EventKind} {d : Nat} (h : s.inHandIs code p) (hk : code.toNat = k) (hn : n ≤ p.length)
    (hb : body p (s.withNow t) = okay out (wakeIfParked (raise e d ((s.withNow t).withSsc x)))) :
    ∃ u, handle k n t s body = .next u ∧ (raise e d { s.answered t code .ok out with ssc := x }).wakesTo u :=
  ⟨_, handle_of_okay_wake h hk hn hb, wakeIfParked_wakes _⟩

end Wakes

/-! ## A round whose due instant has passed -/

theorem startRoundIfPassed_of_not_passed {s : State} {ended due : AT} (hph : s.ssc.phase = .between ended due)
    (hdue : tdiff s.now due ≤ 0) : startRoundIfPassed s = s := by
  have hnot : passed due s.now = false := decide_eq_false (by omega)
  rw [startRoundIfPassed, hph]
  simp [hnot]

theorem startRoundIfPassed_of_running {s : State} (hph : s.ssc.phase = .running) : startRoundIfPassed s = s := by
  rw [startRoundIfPassed, hph]

theorem startRoundIfPassed_of_stopped {s : State} {fires : AT} (hph : s.ssc.phase = .stopped fires) :
    startRoundIfPassed s = s := by
  rw [startRoundIfPassed, hph]

/-! ## The pending plan -/

/-- R3: within a round the pending plan is left armed. -/
theorem commitPlan_of_running {s : State} (hph : s.ssc.phase = .running) :
    commitPlan s = s.withSsc { s.ssc with armed := true } := by
  unfold commitPlan
  rw [startRoundIfPassed_of_running hph]
  dsimp only
  split
  · next harmed =>
    rw [← harmed]
    rfl
  · exact if_pos hph

/-- R3: while no round is in progress the pending plan is applied at once. -/
theorem commitPlan_of_applied {s : State} (hpass : startRoundIfPassed s = s) (hph : s.ssc.phase ≠ .running)
    (harmed : s.ssc.armed = false) :
    commitPlan s = wakeIfParked (applyPlan (s.withSsc { s.ssc with armed := true })) := by
  unfold commitPlan
  rw [hpass]
  dsimp only
  rw [if_neg (by rw [harmed]; exact Bool.false_ne_true)]
  exact if_neg hph

/-- R1, R3: between rounds the plan becomes active; an empty one stops the sweep. -/
theorem applyPlan_of_between {s : State} {ended due : AT} (hph : s.ssc.phase = .between ended due) :
    applyPlan s = raise .planApplied s.ssc.plan.length (s.withSsc { s.ssc with
      active := s.ssc.plan, plan := [], armed := false
      phase := if s.ssc.plan = [] then .stopped (s.now + 1000000) else .between ended due
      position := if s.ssc.plan = [] then 0 else s.ssc.position }) := by
  unfold applyPlan
  rw [hph]
  cases s.ssc.plan <;> rfl

/-- R8: while the sweep is stopped a plan starts a round at once; an empty one leaves its timer running. -/
theorem applyPlan_of_stopped {s : State} {fires : AT} (hph : s.ssc.phase = .stopped fires) :
    applyPlan s = raise .planApplied s.ssc.plan.length (s.withSsc { s.ssc with
      active := s.ssc.plan, plan := [], armed := false, position := 0
      phase := if s.ssc.plan = [] then .stopped fires else .running
      roundStart := if s.ssc.plan = [] then s.ssc.roundStart else s.now }) := by
  unfold applyPlan
  rw [hph]
  cases s.ssc.plan <;> rfl

/-- R3: between rounds, the due instant not passed. -/
theorem commitPlan_of_between {s : State} {ended due : AT} (hph : s.ssc.phase = .between ended due)
    (hdue : tdiff s.now due ≤ 0) (harmed : s.ssc.armed = false) :
    commitPlan s = wakeIfParked (raise .planApplied s.ssc.plan.length (s.withSsc { s.ssc with
      active := s.ssc.plan, plan := []
      phase := if s.ssc.plan = [] then .stopped (s.now + 1000000) else .between ended due
      position := if s.ssc.plan = [] then 0 else s.ssc.position })) := by
  have hrun : s.ssc.phase ≠ .running := fun h => RoundPhase.noConfusion (hph.symm.trans h)
  refine (commitPlan_of_applied (startRoundIfPassed_of_not_passed hph hdue) hrun harmed).trans (congrArg _ ?_)
  refine (applyPlan_of_between (s := s.withSsc { s.ssc with armed := true }) hph).trans ?_
  simp only [State.withSsc, harmed]
  rfl

theorem commitPlan_of_stopped {s : State} {fires : AT} (hph : s.ssc.phase = .stopped fires)
    (harmed : s.ssc.armed = false) :
    commitPlan s = wakeIfParked (raise .planApplied s.ssc.plan.length (s.withSsc { s.ssc with
      active := s.ssc.plan, plan := [], position := 0
      phase := if s.ssc.plan = [] then .stopped fires else .running
      roundStart := if s.ssc.plan = [] then s.ssc.roundStart else s.now })) := by
  have hrun : s.ssc.phase ≠ .running := fun h => RoundPhase.noConfusion (hph.symm.trans h)
  refine (commitPlan_of_applied (startRoundIfPassed_of_stopped hph) hrun harmed).trans (congrArg _ ?_)
  refine (applyPlan_of_stopped (s := s.withSsc { s.ssc with armed := true }) hph).trans ?_
  simp only [State.withSsc, harmed]
  rfl

/-! ## The arbiter -/

/-- R20: when a watch is due. -/
theorem watchDue_iff (s : State) (k : TrackerId) : watchDue s k = true ↔ ∃ o, (s.tracker k).oven = some o
    ∧ ∀ start, s.ssc.lastWatch.get k = some start →
      (match o.phase with
        | .search _ => 100000
        | _ => (s.ssc.watchMs * 1000 : Nat)) ≤ tdiff s.now start := by
  unfold watchDue watchGap State.tracker
  cases (s.otk.trackers.get k).oven with
  | none => simp
  | some o => cases s.ssc.lastWatch.get k <;> cases hph : o.phase <;> simp [hph, Config.searchWatchUs]

/-- R18: a round is in progress with entries left. -/
def RoundLeft (x : Ssc) : Prop := x.phase = .running ∧ x.position < x.active.length

theorem entriesLeft_iff (x : Ssc) : entriesLeft x = true ↔ RoundLeft x := by
  unfold entriesLeft RoundLeft
  cases x.phase <;> simp

theorem watchPassedOver_iff (x : Ssc) : watchPassedOver x = true ↔ RoundLeft x ∧ 3 ≤ x.watchRun := by
  rw [watchPassedOver, Bool.and_eq_true, entriesLeft_iff, decide_eq_true_eq]

/-- R18: no watch is ordered: none is due, or one is passed over for the round. -/
def NoWatch (s : State) : Prop := (∀ k, watchDue s k = false) ∨ (RoundLeft s.ssc ∧ 3 ≤ s.ssc.watchRun)

section Choice

variable {s : State}

/-- R18: the lowest-numbered tracker whose watch is due. -/
theorem find?_watchDue {k : TrackerId} (hk : watchDue s k = true)
    (hlow : ∀ j, trackerCode j < trackerCode k → watchDue s j = false) : allTrackers.find? (watchDue s) = some k := by
  have h0 : k ≠ .t0 → watchDue s .t0 = false := fun h => hlow .t0 (by cases k <;> simp_all [trackerCode])
  have h1 : k = .t2 → watchDue s .t1 = false := fun h => hlow .t1 (by subst h; decide)
  cases k <;> simp_all [allTrackers]

theorem watchChoice_of_due {k : TrackerId} {o : Oven} {c : Chan} (hk : watchDue s k = true)
    (hlow : ∀ j, trackerCode j < trackerCode k → watchDue s j = false) (ho : (s.tracker k).oven = some o)
    (hc : c.val = (o.lo.val + o.hi.val) / 2) : watchChoice s = some (.watch k c) := by
  have hchan : watchChan o = c := Fin.ext hc.symm
  rw [watchChoice, find?_watchDue hk hlow]
  simp [ho, hchan]

theorem watchChoice_of_none_due (h : ∀ k, watchDue s k = false) : watchChoice s = none := by
  have hfind : allTrackers.find? (watchDue s) = none := by simp [h]
  rw [watchChoice, hfind]

theorem chooseOrder_of_due {k : TrackerId} {o : Oven} {c : Chan} (hk : watchDue s k = true)
    (hlow : ∀ j, trackerCode j < trackerCode k → watchDue s j = false) (ho : (s.tracker k).oven = some o)
    (hrun : RoundLeft s.ssc → s.ssc.watchRun < 3) (hc : c.val = (o.lo.val + o.hi.val) / 2) :
    chooseOrder s = .watch k c := by
  have hpass : ¬ watchPassedOver s.ssc = true := fun h =>
    have ⟨hleft, hge⟩ := (watchPassedOver_iff _).mp h
    absurd (hrun hleft) (by omega)
  rw [chooseOrder, watchChoice_of_due hk hlow ho hc]
  exact if_neg hpass

theorem chooseOrder_of_noWatch (h : NoWatch s) : chooseOrder s = otherChoice s.ssc := by
  unfold chooseOrder
  rcases h with h | h
  · rw [watchChoice_of_none_due h]
  · split
    · exact if_pos ((watchPassedOver_iff _).mpr h)
    · rfl

theorem otherChoice_of_queue {x : Ssc} {c : Chan} {rest : List Chan} (h : x.calQueue = c :: rest) :
    otherChoice x = .reference c rest := by
  rw [otherChoice, h]

theorem otherChoice_of_left {x : Ssc} {e : PlanEntry} (hq : x.calQueue = []) (hl : RoundLeft x)
    (he : x.active[x.position]? = some e) : otherChoice x = .sweep e := by
  rw [otherChoice, hq]
  simp [(entriesLeft_iff x).mpr hl, he]

theorem otherChoice_of_not_left {x : Ssc} (hq : x.calQueue = []) (hl : ¬ RoundLeft x) : otherChoice x = .park := by
  rw [otherChoice, hq]
  simp [(entriesLeft_iff x).not.mpr hl]

end Choice

/-! ## A boundary -/

/-- R10, R12: the ended dwell once an order has been sent: its close wait runs. -/
def waitingEnded (s : State) : Option Ended :=
  s.ssc.ended.map fun e => { e with closeWait := some (e.closeWait.getD (s.now + 2000)) }

theorem map_startCloseWait (s : State) : s.ssc.ended.map (startCloseWait s.now) = waitingEnded s := by
  unfold waitingEnded
  refine congrArg (fun f => s.ssc.ended.map f) (funext fun e => ?_)
  obtain ⟨d, ready, wait, completion⟩ := e
  cases wait <;> rfl

/-- R10: what a TUNE or REFERENCE for dwell `d` leaves, outside FAULT. -/
def State.withOrder (s : State) (d : Dwell) (run : Nat) (queue : List Chan) (o : SenseOrder) : State :=
  { s with ssc := { s.ssc with
    nextId := s.ssc.nextId + 1, current := some ⟨d, .ordered s.now⟩, ended := waitingEnded s, line := .running
    watchRun := run, calQueue := queue, sent := s.ssc.sent ++ [o] } }

section Boundary

variable {s : State}

theorem lineOnOrder_of_not_fault (h : ∀ r, s.ssc.line ≠ .fault r) : lineOnOrder s.ssc.line = .running := by
  cases hl : s.ssc.line with
  | fault r => exact absurd hl (h r)
  | running => rfl
  | parked => rfl

theorem orderDwell_eq (d : Dwell) (run : Nat) (o : SenseOrder) (h : ∀ r, s.ssc.line ≠ .fault r) :
    orderDwell d run o s = s.withOrder d run s.ssc.calQueue o := by
  unfold orderDwell
  rw [map_startCloseWait, lineOnOrder_of_not_fault h]
  rfl

theorem sendOrder_reference (c : Chan) (rest : List Chan) (h : ∀ r, s.ssc.line ≠ .fault r) :
    sendOrder (.reference c rest) s
      = s.withOrder ⟨.reference, s.ssc.nextId, c, 2, none, decide (rest = [])⟩ 0 rest (.reference s.ssc.nextId c) := by
  have hlast : rest.isEmpty = decide (rest = []) := by cases rest <;> rfl
  rw [← hlast]
  exact orderDwell_eq (s := s.withSsc { s.ssc with calQueue := rest }) _ _ _ h

theorem sendOrder_park : sendOrder .park s = { s with ssc := { s.ssc with
    current := none, ended := waitingEnded s, line := .parked, watchRun := 0, sent := s.ssc.sent ++ [.park] } } := by
  show s.withSsc _ = _
  rw [map_startCloseWait]
  rfl

theorem startRoundIfDue_of_due {ended due : AT} (hph : s.ssc.phase = .between ended due) (hdue : 0 ≤ tdiff s.now due)
    (hact : s.ssc.active ≠ []) : startRoundIfDue s = startRound due s := by
  rw [startRoundIfDue, hph]
  exact if_pos (by simp [roundIsDue, hph, reached, hdue, hact])

theorem startRoundIfDue_of_not_due
    (h : ∀ ended due, s.ssc.phase = .between ended due → tdiff s.now due < 0 ∨ s.ssc.active = []) :
    startRoundIfDue s = s := by
  unfold startRoundIfDue
  split
  · next ended due hph =>
    refine if_neg ?_
    rcases h ended due hph with hlt | hnil
    · simp [roundIsDue, hph, reached, hlt]
    · simp [roundIsDue, hph, hnil]
  · rfl
  · rfl

theorem boundary_of_not_due
    (h : ∀ ended due, s.ssc.phase = .between ended due → tdiff s.now due < 0 ∨ s.ssc.active = []) :
    boundary s = sendOrder (chooseOrder s) s := by
  rw [boundary, startRoundIfDue_of_not_due h]

theorem boundary_of_due {ended due : AT} (hph : s.ssc.phase = .between ended due) (hdue : 0 ≤ tdiff s.now due)
    (hact : s.ssc.active ≠ []) : boundary s = boundary (startRound due s) := by
  have hstart : startRoundIfDue (startRound due s) = startRound due s :=
    startRoundIfDue_of_not_due fun _ _ h => RoundPhase.noConfusion h
  rw [boundary, boundary, startRoundIfDue_of_due hph hdue hact, hstart]

end Boundary

/-- Settles O27: a round that is due starts, and the order follows the ranks of the choice. -/
theorem arbiterServesBoundary : Obligations.ArbiterServesBoundary := by
  unfold Obligations.ArbiterServesBoundary
  refine ⟨watchDue_iff, fun s hline => ⟨fun ended due hph hdue hact => boundary_of_due hph hdue hact, fun hnot => ?_⟩⟩
  have hb := boundary_of_not_due hnot
  refine ⟨fun k o hk hlow ho hrun c hc => ?_, fun c rest hno hq => ?_, fun e hno hq hl he => ?_, fun hno hq hl => ?_⟩
  · rw [hb, chooseOrder_of_due hk hlow ho hrun hc]
    exact orderDwell_eq _ _ _ hline
  · rw [hb, chooseOrder_of_noWatch hno, otherChoice_of_queue hq]
    exact sendOrder_reference _ _ hline
  · rw [hb, chooseOrder_of_noWatch hno, otherChoice_of_left hq hl he, ← hq]
    exact orderDwell_eq _ _ _ hline
  · rw [hb, chooseOrder_of_noWatch hno, otherChoice_of_not_left hq hl]
    exact sendOrder_park

/-! ## The commands -/

section PlanCommands

variable {s : State} {p : List Byte} {now : AT}

theorem clearPlan_of_inHand (h : s.inHandIs 0x11 p) :
    (s.ssc.armed = true → exec (.clearPlan now) s = .next (s.answered now 0x11 .busy []))
    ∧ (s.ssc.armed = false → exec (.clearPlan now) s = .next
        { s.answered now 0x11 .ok [] with ssc := { s.ssc with plan := [] } }) := by
  rw [exec, execClearPlan]
  refine ⟨fun ha => handle_of_refuse h rfl (Nat.zero_le _) (if_pos ha), fun ha => ?_⟩
  exact handle_of_okay_withSsc h rfl (Nat.zero_le _) (if_neg (by rw [State.withNow_ssc, ha]; exact Bool.false_ne_true))

/-- R8, R18: a plan over an empty one starts a round, whose first entry a parked front end is then tuned to. -/
theorem commitPlan_parked {fires : AT} {e : PlanEntry} {es : List PlanEntry} (hph : s.ssc.phase = .stopped fires)
    (harmed : s.ssc.armed = false) (hline : s.ssc.line = .parked) (hplan : s.ssc.plan = e :: es)
    (hq : s.ssc.calQueue = []) (hw : ∀ k, watchDue s k = false) :
    ∃ u, commitPlan s = sendOrder (.sweep e) u ∧ u.ssc.active = e :: es ∧ u.ssc.roundStart = s.now
      ∧ u.ssc.sent = s.ssc.sent ∧ u.ssc.line = .parked ∧ u.ssc.nextId = s.ssc.nextId ∧ u.now = s.now := by
  have hc := commitPlan_of_stopped hph harmed
  revert hc
  generalize hu : raise EventKind.planApplied _ _ = u
  intro hc
  have hact : u.ssc.active = e :: es := by subst hu; exact hplan
  have hstart : u.ssc.roundStart = s.now := by subst hu; exact if_neg (by rw [hplan]; exact List.cons_ne_nil _ _)
  have hphase : u.ssc.phase = .running := by subst hu; exact if_neg (by rw [hplan]; exact List.cons_ne_nil _ _)
  have hpos : u.ssc.position = 0 := by subst hu; rfl
  have hleft : RoundLeft u.ssc := ⟨hphase, by rw [hpos, hact]; exact Nat.succ_pos _⟩
  have he : u.ssc.active[u.ssc.position]? = some e := by rw [hact, hpos]; rfl
  have hqu : u.ssc.calQueue = [] := by subst hu; exact hq
  have hno : NoWatch u := .inl (by subst hu; exact hw)
  have hparked : u.ssc.line = .parked := by subst hu; exact hline
  have hwork : u.ssc.line = .parked ∧ workDue u = true :=
    ⟨hparked, by rw [workDue, (entriesLeft_iff _).mpr hleft, Bool.or_true]⟩
  have hdue : ∀ ended due, u.ssc.phase = .between ended due → tdiff u.now due < 0 ∨ u.ssc.active = [] :=
    fun _ _ h => RoundPhase.noConfusion (hleft.1.symm.trans h)
  have hwake : wakeIfParked u = sendOrder (.sweep e) u := by
    rw [wakeIfParked, if_pos hwork, boundary_of_not_due hdue, chooseOrder_of_noWatch hno,
      otherChoice_of_left hqu hleft he]
  exact ⟨u, hc.trans hwake, hact, hstart, by subst hu; rfl, hparked, by subst hu; rfl, by subst hu; rfl⟩

end PlanCommands

/-- Settles O25: CLEAR PLAN's two cases; COMMIT PLAN arms within a round, else applies the plan and wakes a parked line. -/
theorem clearAndCommitPlan : Obligations.ClearAndCommitPlan := by
  unfold Obligations.ClearAndCommitPlan
  refine fun now p s => ⟨clearPlan_of_inHand, fun h => ⟨fun hph => ?_, fun ended due hph hdue harmed => ?_,
    fun fires hph harmed => ?_, fun fires e es hph harmed hline hplan hq hw => ?_⟩⟩
  · rw [exec, execCommitPlan]
    exact handle_of_okay_withSsc h rfl (Nat.zero_le _) (congrArg (okay []) (commitPlan_of_running hph))
  · rw [exec, execCommitPlan]
    exact handle_wakes_raise h rfl (Nat.zero_le _) (congrArg (okay []) (commitPlan_of_between hph hdue harmed))
  · rw [exec, execCommitPlan]
    exact handle_wakes_raise h rfl (Nat.zero_le _) (congrArg (okay []) (commitPlan_of_stopped hph harmed))
  · obtain ⟨u, hu, hact, hstart, hsent, hl, hid, hnow⟩ := commitPlan_parked (s := s.withNow now) hph harmed hline hplan hq hw
    rw [exec, execCommitPlan]
    refine ⟨_, handle_hand h rfl (Nat.zero_le _), ?_⟩
    show (commitPlan (s.withNow now)).ssc.active = _ ∧ (commitPlan (s.withNow now)).ssc.roundStart = _
      ∧ (commitPlan (s.withNow now)).ssc.sent = _ ∧ (commitPlan (s.withNow now)).ssc.line = _
      ∧ (commitPlan (s.withNow now)).ssc.current = _
    rw [hu]
    refine ⟨hact, hstart, ?_, ?_, ?_⟩
    · show u.ssc.sent ++ [.tune u.ssc.nextId e.chan] = _
      rw [hsent, hid]
      rfl
    · show lineOnOrder u.ssc.line = _
      rw [hl]
      rfl
    · show some (Current.mk ⟨.sweep, u.ssc.nextId, e.chan, e.dwellMs, none, false⟩ (.ordered u.now)) = _
      rw [hid, hnow]
      rfl

/-! ### SET ROUND INTERVAL and SET WATCH -/

/-- R9: where the sweep stands under a new interval, `now` the instant of the command. -/
theorem setInterval_eq {s : State} {i : Nat} {phase : RoundPhase}
    (h : (s.ssc.phase = .running ∧ phase = .running) ∨ (∃ fires, s.ssc.phase = .stopped fires ∧ phase = .stopped fires)
      ∨ ∃ ended due, s.ssc.phase = .between ended due ∧ tdiff s.now due ≤ 0
        ∧ phase = .between ended (later (s.ssc.roundStart + BitVec.ofNat 32 (i * 1000)) ended)) :
    setInterval i s = wakeIfParked (s.withSsc { s.ssc with intervalMs := i, phase }) := by
  unfold setInterval
  rcases h with ⟨hph, rfl⟩ | ⟨fires, hph, rfl⟩ | ⟨ended, due, hph, hdue, rfl⟩
  · rw [startRoundIfPassed_of_running hph]
    simp [recomputeDue, hph, State.withSsc]
  · rw [startRoundIfPassed_of_stopped hph]
    simp [recomputeDue, hph, State.withSsc]
  · rw [startRoundIfPassed_of_not_passed hph hdue]
    simp [recomputeDue, hph, State.withSsc, intervalEnd, addUs]

/-- Settles O26: the value stored, the due instant recomputed, and the waking after the answer. -/
theorem setIntervalAndWatch : Obligations.SetIntervalAndWatch := by
  unfold Obligations.SetIntervalAndWatch
  refine fun now a b rest s => ⟨fun h phase hph => ?_, fun h => ?_⟩
  · rw [exec, execSetRoundInterval]
    have harg : storedInterval (arg2 (a :: b :: rest) 0) = min 30000 (256 * a.toNat + b.toNat) / 5 * 5 := by
      rw [arg2_cons_cons_zero, storedInterval]
    refine handle_wakes_withSsc h rfl (by simp) ?_
    dsimp only
    rw [harg]
    exact congrArg (okay _) (setInterval_eq hph)
  · rw [exec, execSetWatch]
    have harg : storedWatch (arg2 (a :: b :: rest) 0)
        = min 5000 (max 100 (256 * a.toNat + b.toNat)) / 100 * 100 := by
      rw [arg2_cons_cons_zero, storedWatch, clampNat]
    refine handle_wakes_withSsc h rfl (by simp) ?_
    dsimp only
    rw [harg]
    rfl

end Sys2Proof.Machine
end

section
/-! The life of a dwell (chapter 1): READY, CLOSE, the end of a dwell, the tune timeout and the sense FAULT, the close wait, the
retry, the timers of rounds and watches, and the discards of the sense line. -/

namespace Sys2Proof.Machine

set_option Elab.async false

/-! ## Instants compared -/

theorem reached_of_le {due now : AT} (h : 0 ≤ tdiff now due) : reached due now = true := decide_eq_true h

theorem not_reached_of_lt {due now : AT} (h : tdiff now due < 0) : ¬ reached due now = true := by
  simp only [reached, decide_eq_true_eq]
  omega

/-! ## Records of the front end -/

section Sense

variable {s : State} {now : AT} {body : State → State}

theorem senseEvent_taken (h : s.senses) : senseEvent now s body = .next (body (s.withNow now)) := by
  obtain ⟨hrun, hsync⟩ := h
  rw [senseEvent, event_running hrun, State.withNow_ssc, hsync]
  rfl

theorem senseEvent_discarded (hrun : s.phase = .running) (hsync : s.ssc.resync = true) :
    senseEvent now s body = .next (s.withNow now) := by
  rw [senseEvent, event_running hrun, State.withNow_ssc, hsync]
  rfl

end Sense

/-- Settles O35: discards change AT alone, and under resync so does every record. -/
theorem senseDiscardsAndResync : Obligations.SenseDiscardsAndResync := by
  unfold Obligations.SenseDiscardsAndResync
  intro now a b c off dur x y s hrun
  refine ⟨event_running hrun, event_running hrun, ?_, fun hsync => ?_⟩
  · rw [exec, execSenseResyncClear, event_running hrun]
    rfl
  exact ⟨senseEvent_discarded hrun hsync, senseEvent_discarded hrun hsync, senseEvent_discarded hrun hsync⟩

/-! ## READY -/

theorem exec_ready {s : State} (now : AT) (id : Byte) (h : s.senses) :
    exec (.ready now id) s = .next (readyRecord id (s.withNow now)) :=
  senseEvent_taken h

section Ready

variable {s : State} {d : Dwell} {at' : AT}

theorem readyRecord_of_ordered (hc : s.ssc.current = some ⟨d, .ordered at'⟩) :
    readyRecord d.id s = openDwell d s := by
  rw [readyRecord, hc]
  exact if_pos rfl

theorem readyRecord_of_other_id {id : Byte} (hc : s.ssc.current = some ⟨d, .ordered at'⟩) (hid : id ≠ d.id) :
    readyRecord id s = s := by
  rw [readyRecord, hc]
  exact if_neg (Ne.symm hid)

theorem readyRecord_of_opened {id : Byte} {held : Option Report} (hc : s.ssc.current = some ⟨d, .opened at' held⟩) :
    readyRecord id s = s := by
  rw [readyRecord, hc]

theorem readyRecord_of_none {id : Byte} (hc : s.ssc.current = none) : readyRecord id s = s := by
  rw [readyRecord, hc]

/-- R11, R26: the classifier once dwell `d` is open. -/
def openedBcl (d : Dwell) (now : AT) (x : Bcl) : Bcl :=
  if d.kind = .reference then x
  else { x with tallies := x.tallies
    ++ [⟨d.id, d.kind, d.chan, now, d.lengthMs, ⟨0, 0, 0⟩, ⟨0, 0, 0, 0, 0⟩, false⟩] }

/-- R11: the schedule once dwell `d` is open. -/
def openedSsc (d : Dwell) (now : AT) (x : Ssc) : Ssc :=
  { x with
    current := some ⟨d, .opened now none⟩, timeouts := 0
    lastWatch := match d.watchFor with
      | some k => x.lastWatch.set k (some now)
      | none => x.lastWatch }

theorem openTally_eq (d : Dwell) (s : State) : openTally d s.now s = s.withBcl (openedBcl d s.now s.bcl) := by
  unfold openTally openedBcl
  split <;> rfl

/-- R11: the dwell opens, before an ended one closes. -/
theorem openDwell_of_not_fault (hl : ∀ r, s.ssc.line ≠ .fault r) : openDwell d s
    = closeEnded none ((s.withSsc (openedSsc d s.now s.ssc)).withBcl (openedBcl d s.now s.bcl)) := by
  have hclear : clearFault (s.withSsc (openedSsc d s.now s.ssc)) = s.withSsc (openedSsc d s.now s.ssc) := by
    refine if_neg ?_
    show ¬ inFault (openedSsc d s.now s.ssc) = true
    unfold inFault
    split
    · next r h => exact absurd h (hl r)
    · exact Bool.false_ne_true
    · exact Bool.false_ne_true
  show closeEnded none (openTally d s.now (clearFault (s.withSsc (openedSsc d s.now s.ssc)))) = _
  rw [hclear]
  exact congrArg _ (openTally_eq d (s.withSsc (openedSsc d s.now s.ssc)))

/-- R17: a READY that opens a dwell clears a FAULT. -/
theorem openDwell_of_fault {r : AT} (hl : s.ssc.line = .fault r) : openDwell d s
    = closeEnded none (raise .senseFault 0 ((s.withSsc { openedSsc d s.now s.ssc with line := .running }).withBcl
        (openedBcl d s.now s.bcl))) := by
  have hfault : inFault (openedSsc d s.now s.ssc) = true := by
    rw [inFault, show (openedSsc d s.now s.ssc).line = .fault r from hl]
  have hclear : clearFault (s.withSsc (openedSsc d s.now s.ssc))
      = raise .senseFault 0 (s.withSsc { openedSsc d s.now s.ssc with line := .running }) := if_pos hfault
  show closeEnded none (openTally d s.now (clearFault (s.withSsc (openedSsc d s.now s.ssc)))) = _
  rw [hclear]
  exact congrArg _ (openTally_eq d (raise .senseFault 0 (s.withSsc { openedSsc d s.now s.ssc with line := .running })))

theorem closeEnded_of_none {rep : Option Report} (h : s.ssc.ended = none) : closeEnded rep s = s := by
  rw [closeEnded, h]

theorem closeEnded_of_some {rep : Option Report} {e : Ended} (h : s.ssc.ended = some e) :
    closeEnded rep s
      = closeDwell e.dwell e.ready rep e.completion (s.withSsc { s.ssc with ended := none }) := by
  rw [closeEnded, h]

end Ready

/-! ## The hand-over of a close -/

theorem handOver_bcl (d : Dwell) (ready : AT) (rep : Option Report) (s : State) :
    (handOver d ready rep s).bcl.lastHandOver.map (fun h => (h.id, h.floorReport))
      = some (d.id, floorReportOf s d.chan rep) := by
  unfold handOver
  dsimp only
  rw [← dwellSpan_touches _ _ _ _ _ _ .bcl (by decide), ← closeUnder_touches _ _ _ .bcl (by decide),
    ← setChan_touches _ _ _ .bcl (by decide), ← dwellReport_touches _ _ _ _ _ .bcl (by decide)]
  rfl

/-- R13, R36: a SWEEP or WATCH dwell closed without a report is the last hand-over, without a floor. -/
theorem closeDwell_lastHandOver {d : Dwell} (hk : d.kind ≠ .reference) (ready : AT) (n : Option (BitVec 16))
    (s : State) : ∃ h, (closeDwell d ready none n s).bcl.lastHandOver = some h ∧ h.id = d.id ∧ h.floorReport = none := by
  have hclose : closeDwell d ready none n s = completeIf n (handOver d ready none s) := by
    unfold closeDwell
    cases hd : d.kind with
    | reference => exact absurd hd hk
    | sweep => rfl
    | watch => rfl
  have hbcl : (closeDwell d ready none n s).bcl = (handOver d ready none s).bcl := by
    rw [hclose]
    exact (completeIf_touches _ _ .bcl (by decide)).symm
  obtain ⟨h, hh, heq⟩ := Option.map_eq_some_iff.mp (handOver_bcl d ready none s)
  exact ⟨h, hbcl ▸ hh, congrArg Prod.fst heq, congrArg Prod.snd heq⟩

theorem closeDwell_ssc (d : Dwell) (ready : AT) (rep : Option Report) (n : Option (BitVec 16)) (s : State) :
    (closeDwell d ready rep n s).ssc = s.ssc :=
  (closeDwell_touches _ _ _ _ _ .ssc (by decide)).symm

/-- Settles O28: the ordered dwell opens, a FAULT is cleared, and an ended dwell closes after it. -/
theorem readyOpensDwell : Obligations.ReadyOpensDwell := by
  unfold Obligations.ReadyOpensDwell
  intro now s hrun hsync
  have hs : s.senses := ⟨hrun, hsync⟩
  refine ⟨fun d at' hc => ?_, fun id d at' held hc => ?_, fun id hc => ?_⟩
  · have hopen : exec (.ready now d.id) s = .next (openDwell d (s.withNow now)) := by
      rw [exec_ready now _ hs, readyRecord_of_ordered (s := s.withNow now) hc]
    have hplain (hl : ∀ r, s.ssc.line ≠ .fault r) := openDwell_of_not_fault (d := d) (s := s.withNow now) hl
    have hcleared (r : AT) (hl : s.ssc.line = .fault r) := openDwell_of_fault (d := d) (s := s.withNow now) hl
    refine ⟨fun he hl => ?_, fun r he hl => ?_, fun e he => ⟨fun hl => ?_, fun r hl => ?_, ?_⟩, fun id hid => ?_⟩
    · rw [hopen, hplain hl, closeEnded_of_none (by exact he), ← he]
      rfl
    · rw [hopen, hcleared r hl, closeEnded_of_none (by exact he), ← he]
      rfl
    · rw [hopen, hplain hl, closeEnded_of_some (by exact he)]
      rfl
    · rw [hopen, hcleared r hl, closeEnded_of_some (by exact he)]
      rfl
    · rw [hopen]
      by_cases hl : ∃ r, s.ssc.line = .fault r
      · obtain ⟨r, hl⟩ := hl
        rw [hcleared r hl, closeEnded_of_some (by exact he)]
        exact ⟨_, rfl, by rw [closeDwell_ssc]; rfl, by rw [closeDwell_ssc]; rfl, by rw [closeDwell_ssc]; rfl,
          fun hk => closeDwell_lastHandOver hk _ _ _⟩
      · rw [hplain fun r h => hl ⟨r, h⟩, closeEnded_of_some (by exact he)]
        exact ⟨_, rfl, by rw [closeDwell_ssc]; rfl, by rw [closeDwell_ssc]; rfl, by rw [closeDwell_ssc]; rfl,
          fun hk => closeDwell_lastHandOver hk _ _ _⟩
    · rw [exec_ready now _ hs, readyRecord_of_other_id (s := s.withNow now) hc hid]
  · rw [exec_ready now _ hs, readyRecord_of_opened (s := s.withNow now) hc]
  · rw [exec_ready now _ hs, readyRecord_of_none (s := s.withNow now) hc]

/-! ## CLOSE -/

section Close

variable {s : State} {id : Byte} {rep : Report}

theorem closeRecord_of_ended {e : Ended} (he : s.ssc.ended = some e) (hid : e.dwell.id = id) :
    closeRecord id rep s = closeEnded (some rep) s := by
  rw [closeRecord, he]
  exact if_pos hid

theorem closeRecord_of_not_ended (h : ∀ e, s.ssc.ended = some e → e.dwell.id ≠ id) :
    closeRecord id rep s = holdClose id rep s := by
  unfold closeRecord
  split
  · next e he => exact if_neg (h e he)
  · rfl

theorem holdClose_of_open {d : Dwell} {ready : AT} (hc : s.ssc.current = some ⟨d, .opened ready none⟩) (hid : d.id = id) :
    holdClose id rep s = s.withSsc { s.ssc with current := some ⟨d, .opened ready (some rep)⟩ } := by
  rw [holdClose, hc]
  exact if_pos hid

theorem holdClose_of_other_id {d : Dwell} {ready : AT} {held : Option Report}
    (hc : s.ssc.current = some ⟨d, .opened ready held⟩) (hid : d.id ≠ id) : holdClose id rep s = s := by
  rw [holdClose, hc]
  cases held with
  | none => exact if_neg hid
  | some _ => rfl

theorem holdClose_of_held {d : Dwell} {ready : AT} {first : Report}
    (hc : s.ssc.current = some ⟨d, .opened ready (some first)⟩) : holdClose id rep s = s := by
  rw [holdClose, hc]

theorem holdClose_of_ordered {d : Dwell} {at' : AT} (hc : s.ssc.current = some ⟨d, .ordered at'⟩) :
    holdClose id rep s = s := by
  rw [holdClose, hc]

theorem holdClose_of_none (hc : s.ssc.current = none) : holdClose id rep s = s := by
  rw [holdClose, hc]

end Close

/-- Settles O29: a CLOSE by its id, and what a close hands on, the round completion last. -/
theorem closeClosesOrIsHeld : Obligations.CloseClosesOrIsHeld := by
  unfold Obligations.CloseClosesOrIsHeld
  refine ⟨fun now id f r s hrun hsync => ?_, fun d ready rep n s => ⟨rfl, fun hk => ?_⟩⟩
  · have hexec : exec (.close now id f r) s = .next (closeRecord id ⟨f, r⟩ (s.withNow now)) :=
      senseEvent_taken ⟨hrun, hsync⟩
    rw [hexec]
    refine ⟨fun e he hid => ?_, fun hno => ?_⟩
    · rw [closeRecord_of_ended (s := s.withNow now) he hid, closeEnded_of_some (by exact he)]
      rfl
    · rw [closeRecord_of_not_ended (s := s.withNow now) hno]
      exact ⟨fun d ready hc hid => congrArg _ (holdClose_of_open (s := s.withNow now) hc hid),
        fun d ready rep hc => congrArg _ (holdClose_of_held hc),
        fun d ready held hc hid => congrArg _ (holdClose_of_other_id hc hid),
        fun d at' hc => congrArg _ (holdClose_of_ordered hc), fun hc => congrArg _ (holdClose_of_none hc)⟩
  · rw [closeDwell, hk]
    rfl

end Sys2Proof.Machine
end

section
/-! The timers of the schedule (chapter 1): the end of a dwell, the tune timeout and the sense FAULT, the close wait, the retry in
FAULT, and the timers of rounds, watches and the empty plan. -/

namespace Sys2Proof.Machine

set_option Elab.async false

/-! ## The visit of an entry -/

section Visit

variable {s : State}

/-- R5: an entry that is not a round's last is passed. -/
theorem visit_of_not_last (h : s.ssc.phase ≠ .running ∨ s.ssc.position + 1 < s.ssc.active.length) :
    visit s = (s.withSsc { s.ssc with position := s.ssc.position + 1 }, none) := by
  refine if_neg fun hlast => ?_
  obtain ⟨hrun, hlen⟩ := hlast
  rcases h with h | h
  · exact h hrun
  · exact absurd (show s.ssc.active.length ≤ s.ssc.position + 1 from hlen) (by omega)

/-- R6: what a round's end leaves before an armed plan is applied. -/
def State.roundClosed (s : State) : State :=
  let n := s.ssc.roundNumber + 1
  let u := s.withSsc { s.ssc with roundNumber := n, phase := .between s.now (later (intervalEnd s.ssc) s.now) }
  if s.ssc.intervalMs ≠ 0 ∧ 0 < tdiff s.now (intervalEnd s.ssc) then raise .roundLate (n.toNat % 256) u else u

theorem roundClosed_ssc (s : State) : s.roundClosed.ssc = { s.ssc with
    roundNumber := s.ssc.roundNumber + 1, phase := .between s.now (later (intervalEnd s.ssc) s.now) } := by
  unfold State.roundClosed
  dsimp only
  split <;> rfl

theorem roundClosed_now (s : State) : s.roundClosed.now = s.now := by
  unfold State.roundClosed
  dsimp only
  split <;> rfl

theorem endRound_eq (s : State) :
    endRound s = if s.ssc.armed = true then applyPlan s.roundClosed else s.roundClosed := by
  have hlate : (s.ssc.intervalMs ≠ 0 && passed (intervalEnd s.ssc) s.now) = true
      ↔ s.ssc.intervalMs ≠ 0 ∧ 0 < tdiff s.now (intervalEnd s.ssc) := by
    simp [passed]
  have harmed : s.roundClosed.ssc.armed = s.ssc.armed := by rw [roundClosed_ssc]
  rw [← harmed]
  unfold endRound State.roundClosed
  dsimp only
  simp only [hlate]

/-- R5, R6: the visit of a round's last entry ends the round. -/
theorem visit_of_last (hrun : s.ssc.phase = .running) (hlast : s.ssc.active.length ≤ s.ssc.position + 1) :
    visit s = (s.roundEnded, some (s.ssc.roundNumber + 1)) := by
  refine (if_pos ⟨hrun, hlast⟩).trans (Prod.ext ?_ rfl)
  show endRound (s.withSsc { s.ssc with position := s.ssc.position + 1 }) = s.roundEnded
  generalize hv : s.withSsc { s.ssc with position := s.ssc.position + 1 } = v
  have harmed : v.ssc.armed = s.ssc.armed := by rw [← hv]; rfl
  have hclosed : v.roundClosed = s.roundEnded ∨ s.ssc.armed = true := by
    by_cases ha : s.ssc.armed = true
    · exact .inr ha
    · exact .inl (by rw [← hv]; exact (if_neg ha).symm)
  rw [endRound_eq, harmed]
  split
  · next ha =>
    rw [applyPlan_of_between (congrArg Ssc.phase (roundClosed_ssc v))]
    have hplan : v.roundClosed.ssc.plan = s.ssc.plan := by rw [roundClosed_ssc, ← hv]; rfl
    have hphase : v.roundClosed.ssc.phase = .between v.now (later (intervalEnd v.ssc) v.now) := by
      rw [roundClosed_ssc]
    rw [hplan, ← hphase, roundClosed_now, show v.now = s.now by rw [← hv]; rfl, ← hv]
    exact (if_pos ha).symm
  · next ha => exact hclosed.resolve_right ha

theorem roundEnded_line (s : State) : s.roundEnded.ssc.line = s.ssc.line := by
  unfold State.roundEnded
  dsimp only
  split <;> split <;> rfl

theorem roundEnded_timeouts (s : State) : s.roundEnded.ssc.timeouts = s.ssc.timeouts := by
  unfold State.roundEnded
  dsimp only
  split <;> split <;> rfl

theorem roundEnded_now (s : State) : s.roundEnded.now = s.now := by
  unfold State.roundEnded
  dsimp only
  split <;> split <;> rfl

end Visit

/-! ## The end of a dwell -/

section DwellEnd

variable {s : State} {now ready : AT} {d : Dwell} {held : Option Report}

theorem exec_dwellEnd (hrun : s.phase = .running) (hc : s.ssc.current = some ⟨d, .opened ready held⟩) :
    exec (.dwellEnd now) s = .next (if reached (ready + BitVec.ofNat 32 (d.lengthMs * 1000)) now = true
      then endDwell d ready held (s.withNow now) else s.withNow now) := by
  rw [exec, execDwellEnd, event_running hrun]
  simp only [State.withNow_ssc, hc]
  rfl

/-- R12, R13: the ended dwell waits for its CLOSE, or is closed by a held report; a boundary follows. -/
def finishDwell (d : Dwell) (ready : AT) (held : Option Report) (n : Option (BitVec 16)) (u : State) : State :=
  match held with
  | none => boundary { u with ssc := { u.ssc with ended := some ⟨d, ready, none, n⟩ } }
  | some rep => boundary (closeDwell d ready (some rep) n u)

theorem endDwell_eq : endDwell d ready held s
    = if d.kind = .sweep then
        finishDwell d ready held (visit (s.withSsc { s.ssc with current := none })).2
          (visit (s.withSsc { s.ssc with current := none })).1
      else finishDwell d ready held none (s.withSsc { s.ssc with current := none }) := by
  unfold endDwell
  split <;> cases held <;> rfl

end DwellEnd

/-- Settles O31: the visit of a SWEEP entry, then the end or the close of the dwell, then the boundary. -/
theorem dwellEndsAtItsLength : Obligations.DwellEndsAtItsLength := by
  unfold Obligations.DwellEndsAtItsLength
  intro now ready d held s hrun hc
  have hexec := exec_dwellEnd (now := now) hrun hc
  refine ⟨fun hlt => ?_, fun hge => ?_⟩
  · rw [hexec, if_neg (not_reached_of_lt hlt)]
  rw [hexec, if_pos (reached_of_le hge), endDwell_eq]
  refine ⟨fun hk => ?_, fun hk hnot => ?_, fun hk hph hlast => ?_⟩
  · rw [if_neg hk]
    rfl
  · rw [if_pos hk, visit_of_not_last (by exact hnot)]
    rfl
  · rw [if_pos hk, visit_of_last (by exact hph) (by exact hlast)]
    rfl

/-! ## The turns of the trackers -/

/-- The tracker's turn: tracker `k` becomes what `after` makes of it, with OVEN_LOST when it is lost. -/
def trackerTurn (after : Tracker → Tracker) (lost : Tracker → Bool) (detail : TrackerId → Nat) (s : State)
    (k : TrackerId) : State :=
  if lost (s.tracker k) = true then raise .ovenLost (detail k) (s.setTracker k (after (s.tracker k)))
  else s.setTracker k (after (s.tracker k))

theorem setTracker_self (s : State) (k : TrackerId) : s.setTracker k (s.tracker k) = s := by
  cases k <;> rfl

section Turns

variable {after : Tracker → Tracker} {lost : Tracker → Bool} {detail : TrackerId → Nat}

theorem trackerTurn_now (s : State) (k : TrackerId) : (trackerTurn after lost detail s k).now = s.now := by
  unfold trackerTurn
  split <;> rfl

theorem trackerTurn_settings (s : State) (k : TrackerId) :
    (trackerTurn after lost detail s k).otk.settings = s.otk.settings := by
  unfold trackerTurn
  split <;> rfl

theorem trackerTurn_tracker (s : State) (k : TrackerId) :
    (trackerTurn after lost detail s k).tracker k = after (s.tracker k) := by
  unfold trackerTurn
  split <;> exact State.setTracker_tracker _ _ _

theorem trackerTurn_tracker_ne (s : State) {k j : TrackerId} (h : j ≠ k) :
    (trackerTurn after lost detail s k).tracker j = s.tracker j := by
  unfold trackerTurn
  split <;> exact State.setTracker_tracker_ne _ _ h

theorem trackerTurn_events (s : State) (k : TrackerId) : (trackerTurn after lost detail s k).events
    = (if lost (s.tracker k) = true then raise .ovenLost (detail k) s else s).events := by
  unfold trackerTurn
  split <;> rfl

/-- An event is recorded by AT and the set it finds. -/
theorem raise_events_congr {e : EventKind} {n : Nat} {u v : State} (hnow : u.now = v.now) (hev : u.events = v.events) :
    (raise e n u).events = (raise e n v).events := by
  simp only [raise, State.withEvents_events, hnow, hev]

theorem foldl_raise_events {e : EventKind} (l : List TrackerId) {u v : State} (hnow : u.now = v.now)
    (hev : u.events = v.events) : (l.foldl (fun w k => raise e (detail k) w) u).events
      = (l.foldl (fun w k => raise e (detail k) w) v).events := by
  induction l generalizing u v with
  | nil => exact hev
  | cons k l ih => exact ih (u := raise e (detail k) u) (v := raise e (detail k) v) hnow (raise_events_congr hnow hev)

theorem foldl_raise_now {e : EventKind} (l : List TrackerId) (u : State) :
    (l.foldl (fun w k => raise e (detail k) w) u).now = u.now := by
  induction l generalizing u with
  | nil => rfl
  | cons k l ih => exact ih _

/-- The turns of trackers, each once: what each becomes, and the OVEN_LOSTs of those that are lost, in the order of turns. -/
theorem foldl_trackerTurn (l : List TrackerId) (hl : l.Nodup) (s : State) :
    (∀ k, (l.foldl (trackerTurn after lost detail) s).tracker k
      = if k ∈ l then after (s.tracker k) else s.tracker k)
    ∧ (l.foldl (trackerTurn after lost detail) s).events
      = ((l.filter fun k => lost (s.tracker k)).foldl (fun w k => raise .ovenLost (detail k) w) s).events := by
  induction l generalizing s with
  | nil => exact ⟨fun k => by simp, rfl⟩
  | cons k l ih =>
    obtain ⟨hk, hl⟩ := List.nodup_cons.mp hl
    obtain ⟨htr, hev⟩ := ih hl (trackerTurn after lost detail s k)
    refine ⟨fun j => ?_, ?_⟩
    · rw [List.foldl_cons, htr j]
      by_cases hj : j = k
      · subst hj
        simp [hk, trackerTurn_tracker]
      · simp [hj, trackerTurn_tracker_ne]
    · have hfilter : (l.filter fun j => lost ((trackerTurn after lost detail s k).tracker j))
          = l.filter fun j => lost (s.tracker j) :=
        List.filter_congr fun j hj => by rw [trackerTurn_tracker_ne _ (ne_of_mem_of_not_mem hj hk)]
      rw [List.foldl_cons, hev, hfilter, List.filter_cons]
      by_cases hlost : lost (s.tracker k) = true
      · rw [if_pos hlost, List.foldl_cons]
        refine foldl_raise_events _ (trackerTurn_now _ _) ?_
        rw [trackerTurn_events, if_pos hlost]
      · rw [if_neg hlost]
        refine foldl_raise_events _ (trackerTurn_now _ _) ?_
        rw [trackerTurn_events, if_neg hlost]

theorem mem_allTrackers (k : TrackerId) : k ∈ allTrackers := by cases k <;> decide

theorem allTrackers_turns (s : State) :
    (∀ k, (allTrackers.foldl (trackerTurn after lost detail) s).tracker k = after (s.tracker k))
    ∧ (allTrackers.foldl (trackerTurn after lost detail) s).events = ((([.t0, .t1, .t2] : List TrackerId).filter
        fun k => lost (s.tracker k)).foldl (fun w k => raise .ovenLost (detail k) w) s).events := by
  obtain ⟨htr, hev⟩ := foldl_trackerTurn (after := after) (lost := lost) (detail := detail) allTrackers (by decide) s
  exact ⟨fun k => (htr k).trans (if_pos (mem_allTrackers k)), hev⟩

theorem foldl_trackerTurn_settings (l : List TrackerId) (s : State) :
    (l.foldl (trackerTurn after lost detail) s).otk.settings = s.otk.settings := by
  induction l generalizing s with
  | nil => rfl
  | cons k l ih => exact (ih _).trans (trackerTurn_settings _ _)

/-- A step that is a turn while AT and the settings are as at the start is one all the way. -/
theorem foldl_eq_turns {step : State → TrackerId → State} {s : State}
    (h : ∀ v k, v.now = s.now → v.otk.settings = s.otk.settings → step v k = trackerTurn after lost detail v k)
    (l : List TrackerId) : l.foldl step s = l.foldl (trackerTurn after lost detail) s := by
  suffices hgen : ∀ u : State, u.now = s.now → u.otk.settings = s.otk.settings →
      l.foldl step u = l.foldl (trackerTurn after lost detail) u from hgen s rfl rfl
  intro u hnow hset
  induction l generalizing u with
  | nil => rfl
  | cons k l ih =>
    rw [List.foldl_cons, List.foldl_cons, h u k hnow hset]
    exact ih _ ((trackerTurn_now _ _).trans hnow) ((trackerTurn_settings _ _).trans hset)

end Turns

/-! ## The sense FAULT -/

/-- R64: a tracker in a sense FAULT that begins at `now`. -/
def faultedTracker (now : AT) (x : Tracker) : Tracker :=
  { x with oven := x.oven.map fun o => { o with phase := if o.phase = .locked then .holdover now else o.phase } }

/-- R64: a LOCKED tracker is lost in a sense FAULT. -/
def lostInFault (x : Tracker) : Bool := x.oven.any fun o => decide (o.phase = .locked)

theorem faultTracker_eq (s : State) (k : TrackerId) :
    faultTracker s k = trackerTurn (faultedTracker s.now) lostInFault (fun k => trackerCode k + 16) s k := by
  unfold faultTracker trackerTurn lostInFault faultedTracker
  generalize hx : s.tracker k = x
  obtain ⟨oven, mode, guard⟩ := x
  have hself : s.setTracker k ⟨oven, mode, guard⟩ = s := hx ▸ setTracker_self s k
  cases oven with
  | none => simp [hself]
  | some o =>
    by_cases hl : o.phase = .locked
    · simp only [hl, if_true, Option.any_some, decide_true, Option.map_some, enterHoldover, hx]
    · simp [hl, hself]

/-- R16, R43, R64: the state `t` that a sense FAULT leaves of `u` at `now`. -/
def State.Faulted (now : AT) (u t : State) : Prop :=
  let isLocked := fun o : Oven => decide (o.phase = .locked)
  let lost := (([.t0, .t1, .t2] : List TrackerId).filter fun k => (u.tracker k).oven.any isLocked).foldl
    (fun v k => raise .ovenLost (trackerCode k + 16) v) (raise .senseFault 1 u)
  t.ssc = { u.ssc with line := .fault (now + 100000), calQueue := [] }
  ∧ (∀ k, t.tracker k = { u.tracker k with oven := (u.tracker k).oven.map fun o =>
      { o with phase := if o.phase = .locked then .holdover now else o.phase } })
  ∧ t.otk.settings = u.otk.settings
  ∧ (u.bcl.cal.status = .running →
    t.bcl = { u.bcl with cal := { u.bcl.cal with status := .bad, remaining := 0 } }
    ∧ t.events = (raise .calibration 2 lost).events)
  ∧ (u.bcl.cal.status ≠ .running → t.bcl = u.bcl ∧ t.events = lost.events)
  ∧ touchesOnly [.ssc, .otk, .bcl, .events] u t

theorem faultCalibration_of_running {s : State} (h : s.bcl.cal.status = .running) : faultCalibration s
    = raise .calibration 2 ((s.withSsc { s.ssc with calQueue := [] }).withBcl
        { s.bcl with cal := { s.bcl.cal with status := .bad, remaining := 0 } }) :=
  if_pos h

theorem faultCalibration_of_not_running {s : State} (h : s.bcl.cal.status ≠ .running) :
    faultCalibration s = s.withSsc { s.ssc with calQueue := [] } :=
  if_neg h

theorem faultTrackers_eq (s : State) : faultTrackers s
    = allTrackers.foldl (trackerTurn (faultedTracker s.now) lostInFault fun k => trackerCode k + 16) s :=
  foldl_eq_turns (fun v k hnow _ => hnow ▸ faultTracker_eq v k) allTrackers

theorem faultTrackers_tracker (s : State) (k : TrackerId) :
    (faultTrackers s).tracker k = faultedTracker s.now (s.tracker k) := by
  rw [faultTrackers_eq]
  exact (allTrackers_turns s).1 k

theorem faultTrackers_events (s : State) : (faultTrackers s).events = ((([.t0, .t1, .t2] : List TrackerId).filter
    fun k => lostInFault (s.tracker k)).foldl (fun w k => raise .ovenLost (trackerCode k + 16) w) s).events := by
  rw [faultTrackers_eq]
  exact (allTrackers_turns s).2

theorem faultTrackers_settings (s : State) : (faultTrackers s).otk.settings = s.otk.settings := by
  rw [faultTrackers_eq]
  exact foldl_trackerTurn_settings _ _

/-- R16: the sense line in FAULT. -/
def State.faultLine (u : State) : State :=
  raise .senseFault 1 (u.withSsc { u.ssc with line := .fault (u.now + 100000) })

theorem enterFault_faulted (u : State) : u.Faulted u.now (enterFault u) := by
  have hfault : enterFault u = faultCalibration (faultTrackers u.faultLine) := rfl
  have hkept {p : Part} (hp : p ∉ [Part.otk, .events]) : u.faultLine.agree (faultTrackers u.faultLine) p :=
    faultTrackers_touches _ p hp
  have hssc : (faultTrackers u.faultLine).ssc = u.faultLine.ssc := (hkept (p := .ssc) (by decide)).symm
  have hbcl : (faultTrackers u.faultLine).bcl = u.bcl := (hkept (p := .bcl) (by decide)).symm
  have hnow : (faultTrackers u.faultLine).now = u.now := (hkept (p := .now) (by decide)).symm
  have htracker := faultTrackers_tracker u.faultLine
  have hset := faultTrackers_settings u.faultLine
  have hevents := (faultTrackers_events u.faultLine).trans (foldl_raise_events _ (v := raise .senseFault 1 u) rfl rfl)
  have htouch := (enterFault_touches u).mono (rs := [.ssc, .otk, .bcl, .events])
  rw [hfault] at htouch ⊢
  generalize faultTrackers u.faultLine = w at *
  by_cases hrun : u.bcl.cal.status = .running
  · rw [faultCalibration_of_running (by rw [hbcl]; exact hrun)] at htouch ⊢
    refine ⟨?_, htracker, hset, fun _ => ⟨?_, ?_⟩, fun h => absurd hrun h, htouch⟩
    · show { w.ssc with calQueue := [] } = _
      rw [hssc]
      rfl
    · show { w.bcl with cal := { w.bcl.cal with status := .bad, remaining := 0 } } = _
      rw [hbcl]
    · exact raise_events_congr (hnow.trans (foldl_raise_now _ (raise .senseFault 1 u)).symm) hevents
  · rw [faultCalibration_of_not_running (by rw [hbcl]; exact hrun)] at htouch ⊢
    refine ⟨?_, htracker, hset, fun h => absurd h hrun, fun _ => ⟨hbcl, hevents⟩, htouch⟩
    show { w.ssc with calQueue := [] } = _
    rw [hssc]
    rfl

/-! ## The tune timeout -/

theorem inFault_iff (x : Ssc) : inFault x = true ↔ ∃ r, x.line = .fault r := by
  unfold inFault
  cases x.line <;> simp

/-- R15, R16: a dwell is skipped, and what follows: a boundary, a sense FAULT, or in FAULT nothing. -/
def State.TimesOutTo (now : AT) (s u : State) : Prop :=
  ((∀ r, s.ssc.line ≠ .fault r) → s.ssc.timeouts ≤ 1 → exec (.tuneTimeout now) s = .next (boundary u))
  ∧ ((∀ r, s.ssc.line ≠ .fault r) → 2 ≤ s.ssc.timeouts →
    ∃ t, exec (.tuneTimeout now) s = .next t ∧ u.Faulted now t)
  ∧ (∀ r, s.ssc.line = .fault r → exec (.tuneTimeout now) s = .next u)

section TuneTimeout

variable {s : State} {now orderAT : AT} {d : Dwell}

/-- R15: the order's dwell is given up, and the timeout counted. -/
def State.orderTimedOut (s : State) : State :=
  s.withSsc { s.ssc with timeouts := min 3 (s.ssc.timeouts + 1), current := none }

theorem exec_tuneTimeout (hrun : s.phase = .running) (hc : s.ssc.current = some ⟨d, .ordered orderAT⟩) :
    exec (.tuneTimeout now) s = .next (if reached (orderAT + 2000) now = true
      then tuneTimedOut d orderAT (s.withNow now) else s.withNow now) := by
  rw [exec, execTuneTimeout, event_running hrun]
  simp only [State.withNow_ssc, hc]
  rfl

theorem tuneTimedOut_follows (hrun : s.phase = .running) (hc : s.ssc.current = some ⟨d, .ordered orderAT⟩)
    (hdue : 0 ≤ tdiff now (orderAT + 2000)) {u : State} (hskip : skipDwell d orderAT (s.withNow now).orderTimedOut = u)
    (hline : u.ssc.line = s.ssc.line) (htimeouts : u.ssc.timeouts = min 3 (s.ssc.timeouts + 1)) (hnow : u.now = now) :
    s.TimesOutTo now u := by
  have hexec : exec (.tuneTimeout now) s
      = .next (if inFault u.ssc then u else if 3 ≤ u.ssc.timeouts then enterFault u else boundary u) := by
    rw [exec_tuneTimeout hrun hc, if_pos (reached_of_le hdue), ← hskip]
    rfl
  have hfault : inFault u.ssc = true ↔ ∃ r, s.ssc.line = .fault r := hline ▸ inFault_iff u.ssc
  unfold State.TimesOutTo
  rw [hexec]
  refine ⟨fun hl hn => ?_, fun hl hn => ?_, fun r hl => ?_⟩
  · rw [if_neg fun h => have ⟨r, hr⟩ := hfault.mp h; hl r hr, if_neg (by omega)]
  · rw [if_neg fun h => have ⟨r, hr⟩ := hfault.mp h; hl r hr, if_pos (by omega)]
    exact ⟨_, rfl, hnow ▸ enterFault_faulted u⟩
  · rw [if_pos (hfault.mpr ⟨r, hl⟩)]

end TuneTimeout

/-- Settles O32: what each kind's skipped dwell does, then the boundary, the FAULT or, in FAULT, nothing. -/
theorem tuneTimesOut : Obligations.TuneTimesOut := by
  unfold Obligations.TuneTimesOut
  intro now orderAT d s hrun hc
  refine ⟨fun hlt => ?_, fun hge => ⟨fun hk => ?_, fun hk => ?_, fun hk hnot => ?_, fun hk hph hlast => ?_⟩⟩
  · rw [exec_tuneTimeout hrun hc, if_neg (not_reached_of_lt hlt)]
  · refine tuneTimedOut_follows hrun hc hge ?_ rfl rfl rfl
    rw [skipDwell, hk]
    rfl
  · have hssc := (calOutcome_touches d none (s.withNow now).orderTimedOut .ssc (by decide)).symm
    refine tuneTimedOut_follows hrun hc hge (u := calOutcome d none (s.withNow now).orderTimedOut) ?_
      ((congrArg Ssc.line hssc).trans rfl) ((congrArg Ssc.timeouts hssc).trans rfl)
      (calOutcome_touches d none (s.withNow now).orderTimedOut .now (by decide)).symm
    rw [skipDwell, hk]
  · refine tuneTimedOut_follows hrun hc hge ?_ rfl rfl rfl
    rw [skipDwell, hk]
    dsimp only
    rw [visit_of_not_last (by exact hnot)]
    rfl
  · have htouch := completeRound_touches (s.ssc.roundNumber + 1) (s.withNow now).orderTimedOut.roundEnded
    have hssc := (htouch .ssc (by decide)).symm
    refine tuneTimedOut_follows hrun hc hge
      (u := completeRound (s.ssc.roundNumber + 1) (s.withNow now).orderTimedOut.roundEnded) ?_
      ((congrArg Ssc.line hssc).trans (roundEnded_line _)) ((congrArg Ssc.timeouts hssc).trans (roundEnded_timeouts _))
      ((htouch .now (by decide)).symm.trans (roundEnded_now _))
    rw [skipDwell, hk]
    dsimp only
    rw [visit_of_last (by exact hph) (by exact hlast)]
    rfl

end Sys2Proof.Machine
end

section
/-! The close wait, the retry in FAULT, and the timers of rounds, watches and the empty plan (chapter 1). -/

namespace Sys2Proof.Machine

set_option Elab.async false

/-! ## The close wait -/

section CloseWait

variable {s : State} {now : AT}

theorem exec_closeWaitExpiry {e : Ended} {w : AT} (hrun : s.phase = .running) (he : s.ssc.ended = some e)
    (hw : e.closeWait = some w) : exec (.closeWaitExpiry now) s
      = .next (if reached w now = true then closeEnded none (s.withNow now) else s.withNow now) := by
  rw [exec, execCloseWaitExpiry, event_running hrun]
  simp only [State.withNow_ssc, he, hw]
  rfl

theorem exec_closeWaitExpiry_none (hrun : s.phase = .running) (h : (s.ssc.ended.bind fun e => e.closeWait) = none) :
    exec (.closeWaitExpiry now) s = .next (s.withNow now) := by
  rw [exec, execCloseWaitExpiry, event_running hrun]
  cases he : s.ssc.ended with
  | none => simp only [State.withNow_ssc, he]
  | some e =>
    rw [he] at h
    simp only [State.withNow_ssc, he, show e.closeWait = none from h]

end CloseWait

/-! ## The retry in FAULT -/

/-- R17: what a retry leaves that sends the TUNE of dwell `d`. -/
def State.retried (s : State) (d : Dwell) (run : Nat) : State :=
  { s with ssc := { s.ssc with
    nextId := s.ssc.nextId + 1, current := some ⟨d, .ordered s.now⟩, ended := waitingEnded s
    line := .fault (s.now + 100000), watchRun := run, sent := s.ssc.sent ++ [.tune s.ssc.nextId d.chan] } }

section Retry

variable {s : State} {now : AT}

theorem exec_faultRetry {r : AT} (hrun : s.phase = .running) (hl : s.ssc.line = .fault r) :
    exec (.faultRetry now) s
      = .next (if reached r now = true then retryInFault (s.withNow now) else s.withNow now) := by
  rw [exec, execFaultRetry, event_running hrun]
  simp only [State.withNow_ssc, hl]
  rfl

theorem exec_faultRetry_of_not_fault (hrun : s.phase = .running) (hl : ∀ r, s.ssc.line ≠ .fault r) :
    exec (.faultRetry now) s = .next (s.withNow now) := by
  rw [exec, execFaultRetry, event_running hrun]
  cases h : s.ssc.line with
  | fault r => exact absurd h (hl r)
  | running => simp only [State.withNow_ssc, h]
  | parked => simp only [State.withNow_ssc, h]

/-- R18: a round that is due starts before the arbiter chooses. -/
theorem retryInFault_of_due {ended due : AT} (hph : s.ssc.phase = .between ended due) (hdue : 0 ≤ tdiff s.now due)
    (hact : s.ssc.active ≠ []) : retryInFault s = retryInFault (startRound due s) := by
  have hstart : startRoundIfDue (startRound due s) = startRound due s :=
    startRoundIfDue_of_not_due fun _ _ h => RoundPhase.noConfusion h
  unfold retryInFault
  rw [startRoundIfDue_of_due hph hdue hact, hstart]
  rfl

section NotDue

variable (hnot : ∀ ended due, s.ssc.phase = .between ended due → tdiff s.now due < 0 ∨ s.ssc.active = [])
include hnot

theorem retryInFault_watch {k : TrackerId} {c : Chan} (hch : chooseOrder s = .watch k c) :
    retryInFault s = s.retried ⟨.watch, s.ssc.nextId, c, 45, some k, false⟩ (min 3 (s.ssc.watchRun + 1)) := by
  unfold retryInFault State.retried
  rw [startRoundIfDue_of_not_due hnot, ← map_startCloseWait]
  dsimp only
  rw [hch]
  rfl

theorem retryInFault_sweep {e : PlanEntry} (hch : chooseOrder s = .sweep e) :
    retryInFault s = s.retried ⟨.sweep, s.ssc.nextId, e.chan, e.dwellMs, none, false⟩ 0 := by
  unfold retryInFault State.retried
  rw [startRoundIfDue_of_not_due hnot, ← map_startCloseWait]
  dsimp only
  rw [hch]
  rfl

/-- R17: PARK is not sent. -/
theorem retryInFault_park (hch : chooseOrder s = .park) :
    retryInFault s = s.withSsc { s.ssc with line := .fault (s.now + 100000) } := by
  unfold retryInFault
  rw [startRoundIfDue_of_not_due hnot]
  dsimp only
  rw [hch]
  rfl

end NotDue

end Retry

/-- Settles O33: the close wait; the retry's round, its watch or its entry, or nothing sent. -/
theorem closeWaitAndFaultRetry : Obligations.CloseWaitAndFaultRetry := by
  unfold Obligations.CloseWaitAndFaultRetry
  intro now s hrun
  refine ⟨fun e w he hw => ⟨fun hge => ?_, fun hlt => ?_⟩, exec_closeWaitExpiry_none hrun,
    fun r hl => ⟨fun hlt => ?_, fun hge => ⟨fun ended due hph hdue hact => ?_, fun hnot => ⟨?_, ?_⟩⟩⟩,
    exec_faultRetry_of_not_fault hrun⟩
  · rw [exec_closeWaitExpiry hrun he hw, if_pos (reached_of_le hge), closeEnded_of_some (by exact he)]
    rfl
  · rw [exec_closeWaitExpiry hrun he hw, if_neg (not_reached_of_lt hlt)]
  · rw [exec_faultRetry hrun hl, if_neg (not_reached_of_lt hlt)]
  · rw [exec_faultRetry hrun hl, if_pos (reached_of_le hge),
      retryInFault_of_due (by exact hph) (by exact hdue) (by exact hact)]
    exact ((exec_faultRetry (s := startRound due s) hrun hl).trans (congrArg _ (if_pos (reached_of_le hge)))).symm
  · intro k o hk hlow ho hleft c hc
    rw [exec_faultRetry hrun hl, if_pos (reached_of_le hge),
      retryInFault_watch (by exact hnot) (chooseOrder_of_due hk hlow ho hleft hc)]
    rfl
  · intro hno hq
    refine ⟨fun e hleft he => ?_, fun hleft => ?_⟩
    · rw [exec_faultRetry hrun hl, if_pos (reached_of_le hge), retryInFault_sweep (by exact hnot)
        ((chooseOrder_of_noWatch hno).trans (otherChoice_of_left hq hleft he))]
      rfl
    · rw [exec_faultRetry hrun hl, if_pos (reached_of_le hge), retryInFault_park (by exact hnot)
        ((chooseOrder_of_noWatch hno).trans (otherChoice_of_not_left hq hleft))]
      rfl

/-! ## The timers of rounds, watches and the empty plan -/

section Timers

variable {s : State} {now : AT}

theorem wakeIfParked_of_not_parked (h : s.ssc.line ≠ .parked) : wakeIfParked s = s := if_neg fun hp => h hp.1

/-- R19: a round in progress with entries left is work. -/
theorem wakeIfParked_of_parked (h : s.ssc.line = .parked) (hw : s.hasWork) : wakeIfParked s = boundary s :=
  if_pos ⟨h, (workDue_iff s).mpr hw⟩

theorem exec_roundDue (hrun : s.phase = .running) :
    exec (.roundDue now) s = .next (wakeIfParked (startRoundIfDue (s.withNow now))) := by
  rw [exec, execRoundDue, event_running hrun]

theorem exec_watchDue (hrun : s.phase = .running) : exec (.watchDue now) s
    = .next (if allTrackers.any (watchDue (s.withNow now)) = true then wakeIfParked (s.withNow now) else s.withNow now) := by
  rw [exec, execWatchDue, event_running hrun]

theorem exec_emptyPlanTimer {fires : AT} (hrun : s.phase = .running) (hph : s.ssc.phase = .stopped fires) :
    exec (.emptyPlanTimer now) s = .next (if reached fires now = true then
      completeRound (s.ssc.roundNumber + 1) { s with
        now, ssc := { s.ssc with roundNumber := s.ssc.roundNumber + 1, phase := .stopped (fires + 1000000) } }
      else s.withNow now) := by
  rw [exec, execEmptyPlanTimer, event_running hrun]
  simp only [State.withNow_ssc, hph]
  rfl

theorem exec_emptyPlanTimer_of_running (hrun : s.phase = .running) (hph : s.ssc.phase = .running) :
    exec (.emptyPlanTimer now) s = .next (s.withNow now) := by
  rw [exec, execEmptyPlanTimer, event_running hrun]
  simp only [State.withNow_ssc, hph]

end Timers

/-- Settles O34: the round's start, the waking by a round or a watch, and the round of an empty plan. -/
theorem roundWatchAndEmptyPlanTimers : Obligations.RoundWatchAndEmptyPlanTimers := by
  unfold Obligations.RoundWatchAndEmptyPlanTimers
  intro now s hrun
  refine ⟨fun ended due hph hdue hact => ?_, fun ended due hph hlt hl => ?_, fun k hl hk => ?_, fun hl => ?_,
    fun fires hph => ⟨fun hge => ?_, fun hlt => ?_⟩, exec_emptyPlanTimer_of_running hrun⟩
  · have hexec : exec (.roundDue now) s = .next (wakeIfParked (startRound due (s.withNow now))) := by
      rw [exec_roundDue hrun, startRoundIfDue_of_due (by exact hph) (by exact hdue) (by exact hact)]
    refine ⟨fun hl => ?_, fun hl => ?_⟩
    · rw [hexec, wakeIfParked_of_not_parked (by exact hl)]
      rfl
    · have hleft : 0 < s.ssc.active.length := List.length_pos_iff.mpr hact
      rw [hexec, wakeIfParked_of_parked (by exact hl) (.inr (.inr (.inl ⟨rfl, hleft⟩)))]
      rfl
  · have hstart : startRoundIfDue (s.withNow now) = s.withNow now :=
      startRoundIfDue_of_not_due fun ended' due' hph' => by
        obtain ⟨rfl, rfl⟩ := RoundPhase.between.inj (hph.symm.trans hph')
        exact .inl hlt
    rw [exec_roundDue hrun, hstart, wakeIfParked_of_not_parked (by exact hl)]
  · have hany : allTrackers.any (watchDue (s.withNow now)) = true :=
      List.any_eq_true.mpr ⟨k, mem_allTrackers k, hk⟩
    rw [exec_watchDue hrun, if_pos hany, wakeIfParked_of_parked (by exact hl) (.inl ⟨k, hk⟩)]
  · rw [exec_watchDue hrun, wakeIfParked_of_not_parked (by exact hl), ite_self]
  · rw [exec_emptyPlanTimer hrun hph, if_pos (reached_of_le hge)]
    rfl
  · rw [exec_emptyPlanTimer hrun hph, if_neg (not_reached_of_lt hlt)]

end Sys2Proof.Machine
end

section
/-! Unions of intervals and the windows of a dwell: the covered time of a hand-over is the number of covered instants (chapter
2), and the missed windows of a tracker are those that no covered instant touches and no hit fell on (chapter 3). -/

namespace Sys2Proof.Machine

set_option Elab.async false

/-! ## The union of intervals -/

/-- The instant `n` lies in the interval `i`. -/
def inSpan (n : Int) (i : Int × Int) : Bool := decide (i.1 ≤ n ∧ n < i.2)

theorem inSpan_iff {n : Int} {i : Int × Int} : inSpan n i = true ↔ i.1 ≤ n ∧ n < i.2 := decide_eq_true_iff

theorem mem_insertByStart {i x : Int × Int} {l : List (Int × Int)} : x ∈ insertByStart i l ↔ x = i ∨ x ∈ l := by
  induction l with
  | nil => simp [insertByStart]
  | cons j l ih =>
    rw [insertByStart]
    split
    · exact List.mem_cons
    · simp only [List.mem_cons, ih]
      exact or_left_comm

theorem insertByStart_sorted {i : Int × Int} {l : List (Int × Int)} (h : l.Pairwise fun a b => a.1 ≤ b.1) :
    (insertByStart i l).Pairwise fun a b => a.1 ≤ b.1 := by
  induction l with
  | nil => exact List.pairwise_singleton _ _
  | cons j l ih =>
    obtain ⟨hj, hl⟩ := List.pairwise_cons.mp h
    rw [insertByStart]
    split
    · next hlt =>
      refine List.pairwise_cons.mpr ⟨fun x hx => ?_, h⟩
      rcases List.mem_cons.mp hx with rfl | hx
      · omega
      · have := hj x hx
        omega
    · next hge =>
      refine List.pairwise_cons.mpr ⟨fun x hx => ?_, ih hl⟩
      rcases mem_insertByStart.mp hx with rfl | hx
      · omega
      · exact hj x hx

theorem mem_sortedByStart {x : Int × Int} {l : List (Int × Int)} : x ∈ l.foldr insertByStart [] ↔ x ∈ l := by
  induction l with
  | nil => rfl
  | cons i l ih => rw [List.foldr_cons, mem_insertByStart, ih, List.mem_cons]

theorem sortedByStart_sorted (l : List (Int × Int)) : (l.foldr insertByStart []).Pairwise fun a b => a.1 ≤ b.1 := by
  induction l with
  | nil => exact .nil
  | cons i l ih => exact insertByStart_sorted ih

/-- Intervals in order, not empty, with a gap before each that follows. -/
def Separated (l : List (Int × Int)) : Prop := (∀ i ∈ l, i.1 < i.2) ∧ l.Pairwise fun a b => a.2 < b.1

section Merge

variable {cur : Int × Int} {l : List (Int × Int)}

theorem mergeFrom_any (n : Int) (hcur : ∀ j ∈ l, cur.1 ≤ j.1) (hne : cur.1 < cur.2)
    (hsort : l.Pairwise fun a b => a.1 ≤ b.1) (hpos : ∀ j ∈ l, j.1 < j.2) :
    (mergeFrom cur l).any (inSpan n) = (cur :: l).any (inSpan n) := by
  induction l generalizing cur with
  | nil => rfl
  | cons j l ih =>
    obtain ⟨hj, hl⟩ := List.pairwise_cons.mp hsort
    obtain ⟨hjpos, hlpos⟩ := List.forall_mem_cons.mp hpos
    obtain ⟨hcj, hcl⟩ := List.forall_mem_cons.mp hcur
    rw [mergeFrom]
    split
    · have hgrown : cur.1 < max cur.2 j.2 := by omega
      rw [ih (cur := (cur.1, max cur.2 j.2)) hcl hgrown hl hlpos]
      simp only [List.any_cons, ← Bool.or_assoc]
      congr 1
      rw [Bool.eq_iff_iff, Bool.or_eq_true, inSpan_iff, inSpan_iff, inSpan_iff]
      omega
    · rw [List.any_cons, List.any_cons, ih hj hjpos hl hlpos]

theorem mergeFrom_start (hcur : ∀ j ∈ l, cur.1 ≤ j.1) (hsort : l.Pairwise fun a b => a.1 ≤ b.1) :
    ∀ x ∈ mergeFrom cur l, cur.1 ≤ x.1 := by
  induction l generalizing cur with
  | nil => simp [mergeFrom]
  | cons j l ih =>
    obtain ⟨hj, hl⟩ := List.pairwise_cons.mp hsort
    obtain ⟨hcj, hcl⟩ := List.forall_mem_cons.mp hcur
    rw [mergeFrom]
    split
    · exact ih (cur := (cur.1, max cur.2 j.2)) hcl hl
    · refine List.forall_mem_cons.mpr ⟨le_refl _, fun x hx => hcj.trans (ih hj hl x hx)⟩

theorem mergeFrom_separated (hcur : ∀ j ∈ l, cur.1 ≤ j.1) (hne : cur.1 < cur.2)
    (hsort : l.Pairwise fun a b => a.1 ≤ b.1) (hpos : ∀ j ∈ l, j.1 < j.2) : Separated (mergeFrom cur l) := by
  induction l generalizing cur with
  | nil => exact ⟨by simpa [mergeFrom] using hne, List.pairwise_singleton _ _⟩
  | cons j l ih =>
    obtain ⟨hj, hl⟩ := List.pairwise_cons.mp hsort
    obtain ⟨hjpos, hlpos⟩ := List.forall_mem_cons.mp hpos
    obtain ⟨hcj, hcl⟩ := List.forall_mem_cons.mp hcur
    rw [mergeFrom]
    split
    · have hgrown : cur.1 < max cur.2 j.2 := by omega
      exact ih (cur := (cur.1, max cur.2 j.2)) hcl hgrown hl hlpos
    · next hgap =>
      obtain ⟨hrest, hsep⟩ := ih hj hjpos hl hlpos
      exact ⟨List.forall_mem_cons.mpr ⟨hne, hrest⟩,
        List.pairwise_cons.mpr ⟨fun x hx => lt_of_lt_of_le (not_le.mp hgap) (mergeFrom_start hj hl x hx), hsep⟩⟩

end Merge

theorem inSpan_nonempty {n : Int} {i : Int × Int} (h : inSpan n i = true) : i.1 < i.2 := by
  rw [inSpan_iff] at h
  omega

/-- The instants of a union are those of its intervals. -/
theorem unionOf_any (l : List (Int × Int)) (n : Int) : (unionOf l).any (inSpan n) = l.any (inSpan n) := by
  have hfilter : (l.filter fun i => decide (i.1 < i.2)).any (inSpan n) = l.any (inSpan n) := by
    rw [List.any_filter]
    refine List.any_congr rfl fun i => ?_
    cases h : inSpan n i with
    | false => exact Bool.and_false _
    | true => simp [inSpan_nonempty h]
  rw [← hfilter]
  generalize hm : l.filter (fun i => decide (i.1 < i.2)) = m
  have hpos : ∀ i ∈ m, i.1 < i.2 := fun i hi => by
    rw [← hm] at hi
    simpa using (List.mem_filter.mp hi).2
  have hsorted := sortedByStart_sorted m
  have hmem {x} := mem_sortedByStart (x := x) (l := m)
  have hany : (m.foldr insertByStart []).any (inSpan n) = m.any (inSpan n) := by
    rw [Bool.eq_iff_iff, List.any_eq_true, List.any_eq_true]
    simp only [hmem]
  rw [← hany, unionOf, hm]
  generalize m.foldr insertByStart [] = r at hsorted hmem
  cases r with
  | nil => rfl
  | cons i r =>
    obtain ⟨hi, hr⟩ := List.pairwise_cons.mp hsorted
    exact mergeFrom_any n hi (hpos i (hmem.mp List.mem_cons_self)) hr
      fun j hj => hpos j (hmem.mp (List.mem_cons_of_mem _ hj))

theorem unionOf_separated (l : List (Int × Int)) : Separated (unionOf l) := by
  have hpos : ∀ i ∈ l.filter (fun i => decide (i.1 < i.2)), i.1 < i.2 := fun i hi => by
    simpa using (List.mem_filter.mp hi).2
  have hsorted := sortedByStart_sorted (l.filter fun i => decide (i.1 < i.2))
  have hmem {x} := mem_sortedByStart (x := x) (l := l.filter fun i => decide (i.1 < i.2))
  rw [unionOf]
  generalize (l.filter fun i => decide (i.1 < i.2)).foldr insertByStart [] = r at hsorted hmem
  cases r with
  | nil => exact ⟨by simp, .nil⟩
  | cons i r =>
    obtain ⟨hi, hr⟩ := List.pairwise_cons.mp hsorted
    exact mergeFrom_separated hi (hpos i (hmem.mp List.mem_cons_self)) hr
      fun j hj => hpos j (hmem.mp (List.mem_cons_of_mem _ hj))

/-! ## The length of a union -/

theorem countP_inSpan (i : Int × Int) (h0 : 0 ≤ i.1) (n : Nat) :
    (List.range n).countP (fun k : Nat => inSpan k i) = (min i.2 n - i.1).toNat := by
  induction n with
  | zero =>
    have hmin : (min i.2 (0 : Nat) - i.1).toNat = 0 := by omega
    rw [hmin]
    rfl
  | succ n ih =>
    have hlast : inSpan (n : Int) i = decide (i.1 ≤ n ∧ (n : Int) < i.2) := rfl
    rw [List.range_succ, List.countP_append, ih, List.countP_singleton, hlast]
    by_cases h : i.1 ≤ n ∧ (n : Int) < i.2
    · simp only [h, decide_true, and_self, if_true]
      omega
    · simp only [h, decide_false, Bool.false_eq_true, if_false]
      omega

theorem countP_or_of_disjoint {p q : Nat → Bool} (h : ∀ n, p n = true → q n = false) (l : List Nat) :
    l.countP (fun n => p n || q n) = l.countP p + l.countP q := by
  induction l with
  | nil => rfl
  | cons n l ih =>
    have hn := h n
    simp only [List.countP_cons, ih]
    cases hp : p n <;> cases hq : q n <;> simp_all <;> omega

/-- The total length of separated intervals of a range is the number of its instants that they hold. -/
theorem totalLength_eq_countP {l : List (Int × Int)} {n : Nat} (hsep : Separated l) (hlo : ∀ i ∈ l, 0 ≤ i.1)
    (hhi : ∀ i ∈ l, i.2 ≤ n) : totalLength l = (List.range n).countP fun k : Nat => l.any (inSpan k) := by
  induction l with
  | nil => exact (List.countP_eq_zero.mpr fun _ _ => Bool.false_ne_true).symm
  | cons i l ih =>
    obtain ⟨hpos, hgap⟩ := hsep
    obtain ⟨hi, hl⟩ := List.pairwise_cons.mp hgap
    obtain ⟨hilo, hllo⟩ := List.forall_mem_cons.mp hlo
    obtain ⟨hihi, hlhi⟩ := List.forall_mem_cons.mp hhi
    have hdisjoint (k : Nat) (hk : inSpan k i = true) : l.any (inSpan k) = false := by
      rw [inSpan_iff] at hk
      refine List.any_eq_false.mpr fun j hj hkj => ?_
      rw [inSpan_iff] at hkj
      have := hi j hj
      omega
    have hrest := ih ⟨fun j hj => hpos j (List.mem_cons_of_mem _ hj), hl⟩ hllo hlhi
    simp only [List.any_cons]
    rw [countP_or_of_disjoint hdisjoint, ← hrest, countP_inSpan i hilo, min_eq_left hihi]
    rfl

/-! ## The covered instants of a dwell -/

section Covered

variable (s : State) (b : Band) (ready : AT)

/-- R33: the instant `n` µs after `ready` is covered by an entry of the band's recent-grant list. -/
def coveredAt (n : Nat) : Bool := (s.recent b).any fun e => decide (tdiff e.start ready ≤ n ∧ (n : Int) < tdiff e.stop ready)

theorem coveredOf_any (length : Nat) {n : Nat} (h : n < length) :
    (coveredOf s b ready length).any (inSpan n) = coveredAt s b ready n := by
  rw [coveredOf, unionOf_any, List.any_map, coveredAt]
  refine List.any_congr rfl fun e => ?_
  rw [Bool.eq_iff_iff, Function.comp_apply, inSpan_iff, decide_eq_true_iff, clip, spanFrom]
  omega

/-- An interval of the union begins and ends in the dwell. -/
theorem coveredOf_bounds (length : Nat) :
    ∀ i ∈ coveredOf s b ready length, 0 ≤ i.1 ∧ i.2 ≤ length := by
  intro i hi
  have hpos := (unionOf_separated _).1 i hi
  have hin {n : Int} (hn : inSpan n i = true) : 0 ≤ n ∧ n < length := by
    have hany : (coveredOf s b ready length).any (inSpan n) = true := List.any_eq_true.mpr ⟨i, hi, hn⟩
    rw [coveredOf, unionOf_any, List.any_map, List.any_eq_true] at hany
    obtain ⟨e, -, he⟩ := hany
    rw [Function.comp_apply, inSpan_iff, clip] at he
    omega
  have hfirst := hin (n := i.1) (inSpan_iff.mpr ⟨le_refl _, hpos⟩)
  have hlast := hin (n := i.2 - 1) (inSpan_iff.mpr ⟨by omega, by omega⟩)
  omega

theorem totalLength_coveredOf (length : Nat) :
    totalLength (coveredOf s b ready length) = (List.range length).countP (coveredAt s b ready) := by
  have hbounds := coveredOf_bounds s b ready length
  rw [totalLength_eq_countP (l := coveredOf s b ready length) (unionOf_separated _) (fun i hi => (hbounds i hi).1)
    fun i hi => (hbounds i hi).2]
  exact List.countP_congr fun n hn => by
    rw [coveredOf_any s b ready length (List.mem_range.mp hn)]

end Covered

end Sys2Proof.Machine
end

section
/-! The close of a SWEEP or WATCH dwell (chapters 2 to 4): the missed windows of a tracker, the turn of each tracker, the channel's
record, and the hand-over. -/

namespace Sys2Proof.Machine

set_option Elab.async false

/-! ## The windows of a dwell -/

section Windows

variable {o : Oven} {ready : AT} {length : Nat}

theorem mem_windowsWithin {x : Int} : x ∈ windowsWithin o ready length
    ↔ 0 ≤ x ∧ x + o.width ≤ length ∧ (x - tdiff o.anchor ready) % (o.period : Int) = 0 := by
  unfold windowsWithin
  simp only [List.mem_filter, List.mem_map, List.mem_range, decide_eq_true_eq]
  generalize tdiff o.anchor ready = t
  rw [← Int.emod_eq_emod_iff_emod_sub_eq_zero]
  constructor
  · rintro ⟨⟨i, -, rfl⟩, h0, hlen⟩
    exact ⟨h0, hlen, by rw [Int.add_mul_emod_self_right, Int.emod_emod]⟩
  · rintro ⟨h0, hlen, hmod⟩
    refine ⟨⟨x.toNat / o.period, ?_, ?_⟩, h0, hlen⟩
    · have := Nat.div_le_div_right (c := o.period) (show x.toNat ≤ length by omega)
      omega
    · rw [← hmod, Int.natCast_ediv, Int.toNat_of_nonneg h0, mul_comm]
      exact Int.emod_add_mul_ediv x _

theorem windowsWithin_nodup : (windowsWithin o ready length).Nodup := by
  refine List.Nodup.filter _ (List.Nodup.map_on (fun i hi j hj hij => ?_) List.nodup_range)
  by_cases hp : o.period = 0
  · simp [hp] at hi hj
    omega
  · have hne : (o.period : Int) ≠ 0 := by omega
    exact_mod_cast mul_right_cancel₀ hne (add_left_cancel hij)

/-- R60: the windows within a dwell, by their starts. -/
theorem windowsWithin_perm : (windowsWithin o ready length).Perm
    (((List.range (length + 1)).filter fun a : Nat =>
      decide (((a : Int) - tdiff o.anchor ready) % (o.period : Int) = 0 ∧ a + o.width ≤ length)).map Int.ofNat) := by
  refine (List.perm_ext_iff_of_nodup windowsWithin_nodup
    ((List.nodup_range.filter _).map fun _ _ => Int.ofNat.inj)).mpr fun x => ?_
  rw [mem_windowsWithin]
  simp only [List.mem_map, List.mem_filter, List.mem_range, decide_eq_true_eq, Int.ofNat_eq_natCast]
  constructor
  · rintro ⟨h0, hlen, hmod⟩
    obtain ⟨a, rfl⟩ := Int.eq_ofNat_of_zero_le h0
    exact ⟨a, ⟨by omega, hmod, by omega⟩, rfl⟩
  · rintro ⟨a, ⟨-, hmod, hlen⟩, rfl⟩
    exact ⟨by omega, by omega, hmod⟩

end Windows

/-- R60: the missed windows of a dwell, counted by their starts. -/
def missedStarts (tolerance : Nat) (isCovered : Nat → Bool) (id : Byte) (ready : AT) (length : Nat) (o : Oven) : Nat :=
  (List.range (length + 1)).countP fun (a : Nat) =>
    decide (((a : Int) - tdiff o.anchor ready) % (o.period : Int) = 0 ∧ a + o.width ≤ length)
    && !(List.range o.width).any (fun i => isCovered (a + i))
    && !o.hitSets.any (fun h => h.id = id && h.starts.any fun w =>
      decide ((tdiff w (ready + BitVec.ofNat 32 a)).natAbs ≤ tolerance))

section Missed

variable (s : State) (b : Band) (ready : AT)

/-- R60: a window is examined when no covered instant touches it. -/
theorem examinedWindow_eq (o : Oven) {length a : Nat} (h : a + o.width ≤ length) :
    examinedWindow o (coveredOf s b ready length) a = !(List.range o.width).any fun i => coveredAt s b ready (a + i) := by
  unfold examinedWindow
  congr 1
  rw [Bool.eq_iff_iff, List.any_eq_true, List.any_eq_true]
  constructor
  · rintro ⟨i, hi, hover⟩
    rw [overlaps_iff] at hover
    obtain ⟨hpos, hwidth, hbefore, hafter⟩ := hover
    have hbounds := coveredOf_bounds s b ready length i hi
    refine ⟨(max i.1 a - a).toNat, List.mem_range.mpr (by omega), ?_⟩
    rw [← coveredOf_any s b ready length (by omega)]
    exact List.any_eq_true.mpr ⟨i, hi, inSpan_iff.mpr (by omega)⟩
  · rintro ⟨i, hi, hcov⟩
    rw [List.mem_range] at hi
    rw [← coveredOf_any s b ready length (by omega), List.any_eq_true] at hcov
    obtain ⟨j, hj, hin⟩ := hcov
    rw [inSpan_iff] at hin
    exact ⟨j, hj, (overlaps_iff _ _).mpr (by omega)⟩

theorem missedWindows_eq (tolerance : Nat) (o : Oven) (id : Byte) (length : Nat) :
    missedWindows tolerance o id ready length (coveredOf s b ready length)
      = missedStarts tolerance (coveredAt s b ready) id ready length o := by
  rw [missedWindows, ← List.countP_eq_length_filter, windowsWithin_perm.countP_eq, List.countP_map, List.countP_filter]
  refine List.countP_congr fun a _ => ?_
  by_cases hwin : ((a : Int) - tdiff o.anchor ready) % (o.period : Int) = 0 ∧ a + o.width ≤ length
  · simp only [hwin, Function.comp_apply, Int.ofNat_eq_natCast, examinedWindow_eq s b ready o hwin.2, windowHit, addInt,
      BitVec.ofInt_natCast, decide_true, Bool.and_true, Bool.true_and, and_self]
    rfl
  · simp only [hwin, decide_false, Bool.and_false, Bool.false_and]

end Missed

/-! ## The turns of the trackers -/

section Span

variable (chan : Chan) (limit : Nat) (missed : Oven → Nat)

/-- R60: the tracker is LOCKED and covers the channel. -/
def spanExamines (o : Oven) : Bool := decide (o.phase = .locked ∧ o.lo ≤ chan ∧ chan ≤ o.hi)

/-- R60: the misses after the dwell. -/
def spanMisses (o : Oven) : Nat := min 15 (o.misses + missed o)

/-- R61: the misses reach the miss limit. -/
def spanLoses (o : Oven) : Bool := spanExamines chan o && decide (limit ≤ spanMisses missed o)

/-- R60, R61: the oven after the dwell `id`. -/
def metOven (id : Byte) (now : AT) (o : Oven) : Oven :=
  { o with
    hitSets := o.hitSets.filter fun h => h.id ≠ id
    misses := if spanExamines chan o then spanMisses missed o else o.misses
    phase := if spanLoses chan limit missed o then .holdover now else o.phase }

end Span

theorem spanExamines_eq (chan : Chan) (o : Oven) : (decide (o.phase = .locked) && covers o chan) = spanExamines chan o := by
  rw [Bool.eq_iff_iff, spanExamines, covers]
  simp only [Bool.and_eq_true, decide_eq_true_eq]
  rfl

/-- R60, R61: the tracker after the dwell `id`. -/
def metTracker (chan : Chan) (limit : Nat) (missed : Oven → Nat) (id : Byte) (now : AT) (x : Tracker) : Tracker :=
  { x with oven := x.oven.map (metOven chan limit missed id now) }

/-- R61: the tracker is lost in the dwell. -/
def lostInSpan (chan : Chan) (limit : Nat) (missed : Oven → Nat) (x : Tracker) : Bool :=
  x.oven.any (spanLoses chan limit missed)

theorem examineTracker_eq (id : Byte) (chan : Chan) (ready : AT) (length : Nat) (covered : List (Int × Int)) (v : State)
    (k : TrackerId) {missed : Oven → Nat}
    (hm : ∀ o, missedWindows v.otk.settings.tolerance o id ready length covered = missed o) :
    examineTracker id chan ready length covered v k
      = trackerTurn (metTracker chan v.otk.settings.missLimit missed id v.now)
          (lostInSpan chan v.otk.settings.missLimit missed) trackerCode v k := by
  unfold examineTracker trackerTurn lostInSpan metTracker
  generalize hx : v.tracker k = x
  obtain ⟨oven, mode, guard⟩ := x
  have hself : v.setTracker k ⟨oven, mode, guard⟩ = v := hx ▸ setTracker_self v k
  cases oven with
  | none => exact hself.symm
  | some o =>
    simp only [spanExamines_eq, hm, Option.any_some, Option.map_some, metOven, spanLoses, enterHoldover]
    have hlimit : v.otk.settings.missLimit ≤ min 15 (o.misses + missed o)
        ↔ v.otk.settings.missLimit ≤ spanMisses missed o := Iff.rfl
    by_cases hex : spanExamines chan o = true
    · by_cases hlim : v.otk.settings.missLimit ≤ spanMisses missed o
      · simp only [hex, hlim, hlimit, hx, decide_true, Bool.and_self, if_true]
        rfl
      · simp only [hex, hlim, hlimit, decide_false, Bool.and_false, Bool.false_eq_true, if_true, if_false]
        rfl
    · simp only [hex, Bool.false_and, Bool.false_eq_true, if_false]
      rfl

section DwellSpan

variable {id : Byte} {chan : Chan} {ready : AT} {length : Nat} {covered : List (Int × Int)} {s : State}
  {missed : Oven → Nat} (hm : ∀ o, missedWindows s.otk.settings.tolerance o id ready length covered = missed o)
include hm

theorem dwellSpan_eq : dwellSpan id chan ready length covered s
    = allTrackers.foldl (trackerTurn (metTracker chan s.otk.settings.missLimit missed id s.now)
        (lostInSpan chan s.otk.settings.missLimit missed) trackerCode) s :=
  foldl_eq_turns (fun v k hnow hset => by
    rw [examineTracker_eq id chan ready length covered v k (by rw [hset]; exact hm), hnow, hset]) allTrackers

theorem dwellSpan_tracker (k : TrackerId) : (dwellSpan id chan ready length covered s).tracker k
    = metTracker chan s.otk.settings.missLimit missed id s.now (s.tracker k) := by
  rw [dwellSpan_eq hm]
  exact (allTrackers_turns s).1 k

theorem dwellSpan_events : (dwellSpan id chan ready length covered s).events
    = ((([.t0, .t1, .t2] : List TrackerId).filter fun k => lostInSpan chan s.otk.settings.missLimit missed
        (s.tracker k)).foldl (fun w k => raise .ovenLost (trackerCode k) w) s).events := by
  rw [dwellSpan_eq hm]
  exact (allTrackers_turns s).2

theorem dwellSpan_settings : (dwellSpan id chan ready length covered s).otk.settings = s.otk.settings := by
  rw [dwellSpan_eq hm]
  exact foldl_trackerTurn_settings _ _

end DwellSpan

/-! ## The channel at a close -/

section CloseUnder

variable (c : Chan) (rep : Option Report) (s : State)

/-- R38: UNDER after a close. -/
def underAfter (rep : Option Report) (old : Bool) : Bool :=
  match rep with
  | none => old
  | some p => decide (p.rawFloor = 0)

/-- R38: UNDER rises at a close. -/
def underRises (rep : Option Report) (old : Bool) : Bool :=
  match rep with
  | none => false
  | some p => decide (p.rawFloor = 0) && !old

theorem toNat_eq_zero_iff (b : Byte) : b.toNat = 0 ↔ b = 0 :=
  ⟨fun h => BitVec.eq_of_toNat_eq h, fun h => h ▸ rfl⟩

theorem closeUnder_chan : (closeUnder c rep s).chan c
    = { s.chan c with underRange := underAfter rep (s.chan c).underRange } := by
  cases rep with
  | none => rfl
  | some p =>
    simp only [closeUnder, underAfter, ← toNat_eq_zero_iff]
    split <;> exact State.setChan_chan _ _ _

theorem closeUnder_chan_ne {q : Chan} (h : q ≠ c) : (closeUnder c rep s).chan q = s.chan q := by
  cases rep with
  | none => rfl
  | some p =>
    unfold closeUnder
    dsimp only
    split <;> exact State.setChan_chan_ne _ _ h

theorem closeUnder_events : (closeUnder c rep s).events
    = (if underRises rep (s.chan c).underRange = true then raise .range c.val s else s).events := by
  cases rep with
  | none => rfl
  | some p =>
    simp only [closeUnder, underRises, ← toNat_eq_zero_iff]
    split <;> rfl

theorem closeUnder_omap : (closeUnder c rep s).omap = { s.omap with channels := (closeUnder c rep s).omap.channels } := by
  cases rep with
  | none => rfl
  | some p =>
    unfold closeUnder
    dsimp only
    split <;> rfl

end CloseUnder

theorem ite_raise_now (b : Bool) (e : EventKind) (n : Nat) (s : State) :
    (if b = true then raise e n s else s).now = s.now := by
  split <;> rfl

/-! ## The hand-over -/

section HandOver

variable (d : Dwell) (ready : AT) (rep : Option Report) (tally : Tally) (s : State)

/-- R36: the hand-over of a dwell with this tally. -/
def handedOver : HandOver :=
  let covered := (List.range (d.lengthMs * 1000)).countP (coveredAt s (bandOf d.chan) ready)
  { id := d.id, kind := d.kind, chan := d.chan, ready, lengthMs := d.lengthMs
    observed := d.lengthMs * 1000 - covered, covered, busy := tally.busy
    floorReport := floorReportOf s d.chan rep, counts := tally.counts }

/-- R33 to R38: the channel's record after a close. -/
def closedRecord : ChannelRecord :=
  let x := closeOver tally.saturated (reported s.omap.divisor s.now (handedOver d ready rep tally s).observed tally.busy
    (floorReportOf s d.chan rep) (s.chan d.chan))
  { x with underRange := underAfter rep x.underRange }

/-- R33 to R38: the state that the trackers meet at a close. -/
def spanMet : State :=
  let u := s.withBcl { s.bcl with
    tallies := s.bcl.tallies.filter fun x => x.id ≠ d.id
    lastHandOver := some (handedOver d ready rep tally s) }
  let v := dwellReport d.chan (handedOver d ready rep tally s).observed tally.busy (floorReportOf s d.chan rep) u
  closeUnder d.chan rep (v.setChan d.chan (closeOver tally.saturated (v.chan d.chan)))

variable {d ready rep tally s}

theorem handOver_eq (ht : s.bcl.tallies.find? (fun x => x.id = d.id) = some tally) : handOver d ready rep s
    = dwellSpan d.id d.chan ready (d.lengthMs * 1000) (coveredOf s (bandOf d.chan) ready (d.lengthMs * 1000))
        (spanMet d ready rep tally s) := by
  unfold handOver spanMet handedOver
  simp only [ht, Option.getD_some, totalLength_coveredOf]

theorem closeDwell_handOver (hk : d.kind ≠ .reference) : closeDwell d ready rep none s = handOver d ready rep s := by
  unfold closeDwell
  cases hd : d.kind with
  | reference => exact absurd hd hk
  | sweep => rfl
  | watch => rfl

theorem spanMet_touches : touchesOnly [.bcl, .omap, .events] s (spanMet d ready rep tally s) :=
  (((withBcl_touches _ _).step (dwellReport_touches _ _ _ _ _) (rs := [.bcl, .omap, .events])).trans
    (setChan_touches _ _ _).mono).trans (closeUnder_touches _ _ _).mono

theorem spanMet_bcl : (spanMet d ready rep tally s).bcl = { s.bcl with
    tallies := s.bcl.tallies.filter fun x => x.id ≠ d.id
    lastHandOver := some (handedOver d ready rep tally s) } :=
  (closeUnder_touches _ _ _ .bcl (by decide)).symm

theorem spanMet_chan : (spanMet d ready rep tally s).chan d.chan = closedRecord d ready rep tally s := by
  unfold spanMet closedRecord
  rw [closeUnder_chan, State.setChan_chan, dwellReport, State.setChan_chan]
  rfl

theorem spanMet_chan_ne {c : Chan} (h : c ≠ d.chan) : (spanMet d ready rep tally s).chan c = s.chan c := by
  unfold spanMet
  rw [closeUnder_chan_ne _ _ _ h, State.setChan_chan_ne _ _ h, dwellReport, State.setChan_chan_ne _ _ h]
  rfl

theorem spanMet_omap : (spanMet d ready rep tally s).omap
    = { s.omap with channels := (spanMet d ready rep tally s).omap.channels } :=
  closeUnder_omap _ _ _

theorem reported_underRange (divisor : Nat) (now : AT) (n : Nat) (sums : Busy) (f : Option Nat) (x : ChannelRecord) :
    (reported divisor now n sums f x).underRange = x.underRange := by
  unfold reported
  dsimp only
  split <;> rfl

theorem spanMet_events : (spanMet d ready rep tally s).events
    = (if underRises rep (s.chan d.chan).underRange = true then raise .range d.chan.val s else s).events := by
  unfold spanMet
  rw [closeUnder_events, State.setChan_chan, dwellReport, State.setChan_chan]
  simp only [closeOver, reported_underRange]
  split <;> rename_i h
  · rw [if_pos (by exact h)]
    rfl
  · rw [if_neg (by exact h)]
    rfl

theorem closedRecord_busy (h : 1000 ≤ (handedOver d ready rep tally s).observed) :
    (closedRecord d ready rep tally s).busyFrame
        = busyStep s.omap.divisor (handedOver d ready rep tally s).observed tally.busy.frame (s.chan d.chan).busyFrame
    ∧ (closedRecord d ready rep tally s).busyOven
        = busyStep s.omap.divisor (handedOver d ready rep tally s).observed tally.busy.oven (s.chan d.chan).busyOven
    ∧ (closedRecord d ready rep tally s).busyOther
        = busyStep s.omap.divisor (handedOver d ready rep tally s).observed tally.busy.other (s.chan d.chan).busyOther := by
  simp only [closedRecord, closeOver, reported, h, if_true, and_self]

theorem closedRecord_busy_kept (h : (handedOver d ready rep tally s).observed < 1000) :
    (closedRecord d ready rep tally s).busyFrame = (s.chan d.chan).busyFrame
    ∧ (closedRecord d ready rep tally s).busyOven = (s.chan d.chan).busyOven
    ∧ (closedRecord d ready rep tally s).busyOther = (s.chan d.chan).busyOther := by
  have h' : ¬ 1000 ≤ (handedOver d ready rep tally s).observed := by omega
  simp only [closedRecord, closeOver, reported, h', if_false, and_self]

theorem closedRecord_eq : closedRecord d ready rep tally s = { s.chan d.chan with
    busyFrame := (closedRecord d ready rep tally s).busyFrame
    busyOven := (closedRecord d ready rep tally s).busyOven
    busyOther := (closedRecord d ready rep tally s).busyOther
    floor := match floorReportOf s d.chan rep with
      | none => (s.chan d.chan).floor
      | some f => floorStep f (s.chan d.chan).floor
    lastDwell := some s.now
    overRange := (s.chan d.chan).overRange && tally.saturated
    underRange := underAfter rep (s.chan d.chan).underRange } := by
  unfold closedRecord closeOver
  rw [reported_underRange]
  unfold reported
  dsimp only
  split <;> cases floorReportOf s d.chan rep <;> rfl

end HandOver

/-- Settles O30: the hand-over and the channel's record before the trackers' turns, then each tracker's turn. -/
theorem closeHandsDwellOver : Obligations.CloseHandsDwellOver := by
  unfold Obligations.CloseHandsDwellOver
  intro d ready rep tally s hk ht
  have hclose : closeDwell d ready rep none s = _ := (closeDwell_handOver hk).trans (handOver_eq ht)
  have htouch := (closeDwell_handOver (ready := ready) (rep := rep) (s := s) hk) ▸ handOver_touches d ready rep s
  generalize closeDwell d ready rep none s = t at hclose htouch
  have hmet := spanMet_touches (d := d) (ready := ready) (rep := rep) (tally := tally) (s := s)
  have hotk : (spanMet d ready rep tally s).otk = s.otk := (hmet .otk (by decide)).symm
  have hnow : (spanMet d ready rep tally s).now = s.now := (hmet .now (by decide)).symm
  have hspan := dwellSpan_touches d.id d.chan ready (d.lengthMs * 1000)
    (coveredOf s (bandOf d.chan) ready (d.lengthMs * 1000)) (spanMet d ready rep tally s)
  have hm (o : Oven) : missedWindows (spanMet d ready rep tally s).otk.settings.tolerance o d.id ready (d.lengthMs * 1000)
      (coveredOf s (bandOf d.chan) ready (d.lengthMs * 1000))
      = missedStarts s.otk.settings.tolerance (coveredAt s (bandOf d.chan) ready) d.id ready (d.lengthMs * 1000) o := by
    rw [hotk, missedWindows_eq]
  have htracker (k : TrackerId) := dwellSpan_tracker (chan := d.chan) hm k
  have hevents := dwellSpan_events (chan := d.chan) hm
  have hsettings := dwellSpan_settings (chan := d.chan) hm
  rw [← hclose] at hspan htracker hevents hsettings
  have homap : t.omap = (spanMet d ready rep tally s).omap := (hspan .omap (by decide)).symm
  have hchan (c : Chan) : t.chan c = (spanMet d ready rep tally s).chan c := by rw [State.chan, homap]; rfl
  have hnew : t.chan d.chan = closedRecord d ready rep tally s := (hchan _).trans spanMet_chan
  have htr (k : TrackerId) : (spanMet d ready rep tally s).tracker k = s.tracker k := by rw [State.tracker, hotk]; rfl
  refine ⟨handedOver d ready rep tally s, (hspan .bcl (by decide)).symm.trans spanMet_bcl, rfl, rfl, rfl, rfl, rfl, rfl,
    rfl, rfl, rfl, rfl, fun h => ?_, fun h => ?_, ?_, fun c hc => (hchan c).trans (spanMet_chan_ne hc), ?_, fun k => ?_,
    hsettings.trans (congrArg Otk.settings hotk), ?_, ?_⟩
  · rw [hnew]
    exact closedRecord_busy h
  · rw [hnew]
    exact closedRecord_busy_kept h
  · rw [hnew]
    exact closedRecord_eq
  · rw [homap]
    exact spanMet_omap
  · rw [htracker k, htr k, hotk, hnow]
    rfl
  · rw [hevents]
    simp only [htr, hotk]
    exact foldl_raise_events _ (hnow.trans (ite_raise_now _ _ _ _).symm) spanMet_events
  · exact htouch.mono

end Sys2Proof.Machine
end

section
/-! The read commands (R184, R36, R44, R70, R89, R90, R105, R130, R161, R162, R181, R194, R195, R4, R22): what each answers, the
arguments that are refused, and the lengths of the answers. -/

namespace Sys2Proof.Machine

set_option Elab.async false

/-! ## Codes of arguments -/

theorem radioOf_of_code {b : Byte} {r : Radio} (h : b.toNat = radioCode r) : radioOf b = some r := by
  cases r <;> simp_all [radioOf, radioCode]

theorem radioOf_of_lt {b : Byte} (h : b.toNat < 2) : ∃ r, radioOf b = some r ∧ b.toNat = radioCode r := by
  by_cases h0 : b.toNat = 0
  · exact ⟨.r0, radioOf_of_code h0, h0⟩
  · have h1 : b.toNat = 1 := by omega
    exact ⟨.r1, radioOf_of_code h1, h1⟩

theorem radioOf_eq_none {b : Byte} (h : 2 ≤ b.toNat) : radioOf b = none := by
  unfold radioOf
  split <;> first | omega | rfl

theorem trackerOf_of_code {b : Byte} {k : TrackerId} (h : b.toNat = trackerCode k) : trackerOf b = some k := by
  cases k <;> simp_all [trackerOf, trackerCode]

theorem trackerOf_of_lt {b : Byte} (h : b.toNat < 3) : ∃ k, trackerOf b = some k ∧ b.toNat = trackerCode k := by
  by_cases h0 : b.toNat = 0
  · exact ⟨.t0, trackerOf_of_code h0, h0⟩
  by_cases h1 : b.toNat = 1
  · exact ⟨.t1, trackerOf_of_code h1, h1⟩
  · have h2 : b.toNat = 2 := by omega
    exact ⟨.t2, trackerOf_of_code h2, h2⟩

theorem trackerOf_eq_none {b : Byte} (h : 3 ≤ b.toNat) : trackerOf b = none := by
  unfold trackerOf
  split <;> first | omega | rfl

/-- The band of a code, as a read names it. -/
theorem bandOfCode_of_le {b : Byte} (h : b.toNat ≤ 1) : bandOfCode b = some (if b = 0 then .ghz24 else .ghz5) := by
  by_cases h0 : b = 0
  · subst h0
    rfl
  · have h1 : b.toNat = 1 := by
      have := (toNat_eq_zero_iff b).not.mpr h0
      omega
    rw [if_neg h0]
    simp [bandOfCode, h1]

theorem bandOfCode_eq_none {b : Byte} (h : 2 ≤ b.toNat) : bandOfCode b = none := by
  unfold bandOfCode
  split <;> first | omega | rfl

/-! ## What a read answers -/

section Read

variable {s : State} {now : AT} {code : Byte} {k n : Nat} {p : List Byte}

/-- R188: a read answers and changes nothing else. -/
theorem handle_of_read {out : List Byte} {body : List Byte → State → (Code × List Byte) × State} (h : s.inHandIs code p)
    (hk : code.toNat = k) (hn : n ≤ p.length) (hb : body p (s.withNow now) = okay out (s.withNow now)) :
    handle k n now s body = .next (s.answered now code .ok out) := by
  rw [handle_of_okay h hk hn hb]
  rfl

theorem exec_readIdentity (h : s.inHandIs 0x01 p) : exec (.readIdentity now) s = .next (s.answered now 0x01 .ok
    (b2 Config.partCode ++ b1 Config.revision ++ b1 s.host.dom.toNat ++ b1 s.host.mains.toNat)) := by
  rw [exec, execReadIdentity]
  exact handle_of_read h rfl (Nat.zero_le _) rfl

theorem exec_readStatus (h : s.inHandIs 0x02 p) :
    exec (.readStatus now) s = .next (s.answered now 0x02 .ok (statusBytes (s.withNow now))) := by
  rw [exec, execReadStatus]
  exact handle_of_read h rfl (Nat.zero_le _) rfl

theorem exec_readCalibration (h : s.inHandIs 0x22 p) :
    exec (.readCalibration now) s = .next (s.answered now 0x22 .ok (calibrationBytes s)) := by
  rw [exec, execReadCalibration]
  exact handle_of_read h rfl (Nat.zero_le _) rfl

theorem exec_readIntake (h : s.inHandIs 0x23 p) :
    exec (.readIntake now) s = .next (s.answered now 0x23 .ok (bOpt 35 handOverBytes s.bcl.lastHandOver)) := by
  rw [exec, execReadIntake]
  exact handle_of_read h rfl (Nat.zero_le _) rfl

theorem exec_readMap (h : s.inHandIs 0x41 p) :
    exec (.readMap now) s = .next (s.answered now 0x41 .ok (mapBytes s)) := by
  rw [exec, execReadMap]
  exact handle_of_read h rfl (Nat.zero_le _) rfl

theorem exec_readPlanner (h : s.inHandIs 0x65 p) : exec (.readPlanner now) s = .next (s.answered now 0x65 .ok
    (plannerSettingsBytes s.cpl ++ b2 s.omap.passRound.toNat ++ planRecordBytes s .r0 ++ planRecordBytes s .r1)) := by
  rw [exec, execReadPlanner]
  exact handle_of_read h rfl (Nat.zero_le _) rfl

section OneArgument

variable {a : Byte}

theorem exec_readTracker {x : TrackerId} (h : s.inHandIs 0x33 (a :: p)) (ha : trackerOf a = some x) :
    exec (.readTracker now) s
      = .next (s.answered now 0x33 .ok (trackerBytes s.otk.settings now (s.tracker x))) := by
  rw [exec, execReadTracker]
  exact handle_of_read h rfl (by simp) (by rw [arg_cons_zero, ha]; rfl)

theorem exec_readTracker_refused (h : s.inHandIs 0x33 (a :: p)) (ha : trackerOf a = none) :
    exec (.readTracker now) s = .next (s.answered now 0x33 .badArgument []) := by
  rw [exec, execReadTracker]
  exact handle_of_refuse h rfl (by simp) (by rw [arg_cons_zero, ha])

theorem exec_readChannel {c : Chan} (h : s.inHandIs 0x40 (a :: p)) (ha : chanOf a = some c) :
    exec (.readChannel now) s = .next (s.answered now 0x40 .ok (channelBytes s.omap (s.chan c))) := by
  rw [exec, execReadChannel]
  exact handle_of_read h rfl (by simp) (by rw [arg_cons_zero, ha]; rfl)

theorem exec_readChannel_refused (h : s.inHandIs 0x40 (a :: p)) (ha : chanOf a = none) :
    exec (.readChannel now) s = .next (s.answered now 0x40 .badArgument []) := by
  rw [exec, execReadChannel]
  exact handle_of_refuse h rfl (by simp) (by rw [arg_cons_zero, ha])

theorem exec_readGate {r : Radio} (h : s.inHandIs 0x73 (a :: p)) (ha : radioOf a = some r) :
    exec (.readGate now) s = .next (s.answered now 0x73 .ok (gateBytes s r)) := by
  rw [exec, execReadGate]
  exact handle_of_read h rfl (by simp) (by rw [arg_cons_zero, ha]; rfl)

theorem exec_readGate_refused (h : s.inHandIs 0x73 (a :: p)) (ha : radioOf a = none) :
    exec (.readGate now) s = .next (s.answered now 0x73 .badArgument []) := by
  rw [exec, execReadGate]
  exact handle_of_refuse h rfl (by simp) (by rw [arg_cons_zero, ha])

theorem exec_readLink {r : Radio} (h : s.inHandIs 0x79 (a :: p)) (ha : radioOf a = some r) :
    exec (.readLink now) s = .next (s.answered now 0x79 .ok (linkBytes (s.link r))) := by
  rw [exec, execReadLink]
  exact handle_of_read h rfl (by simp) (by rw [arg_cons_zero, ha]; rfl)

theorem exec_readLink_refused (h : s.inHandIs 0x79 (a :: p)) (ha : radioOf a = none) :
    exec (.readLink now) s = .next (s.answered now 0x79 .badArgument []) := by
  rw [exec, execReadLink]
  exact handle_of_refuse h rfl (by simp) (by rw [arg_cons_zero, ha])

theorem exec_readGrants {b : Band} (h : s.inHandIs 0x74 (a :: p)) (ha : bandOfCode a = some b) :
    exec (.readGrants now) s = .next (s.answered now 0x74 .ok (bRun grantEntryBytes (s.recent b))) := by
  rw [exec, execReadGrants]
  exact handle_of_read h rfl (by simp) (by rw [arg_cons_zero, ha]; cases b <;> rfl)

theorem exec_readGrants_refused (h : s.inHandIs 0x74 (a :: p)) (ha : bandOfCode a = none) :
    exec (.readGrants now) s = .next (s.answered now 0x74 .badArgument []) := by
  rw [exec, execReadGrants]
  exact handle_of_refuse h rfl (by simp) (by rw [arg_cons_zero, ha])

end OneArgument

section MoreArguments

variable {a b c : Byte}

theorem exec_readNeighbours (h : s.inHandIs 0x50 (a :: b :: p)) (hab : a.toNat ≤ 63 ∧ 1 ≤ b.toNat ∧ b.toNat ≤ 6) :
    exec (.readNeighbours now) s = .next (s.answered now 0x50 .ok (neighboursBytes a.toNat b.toNat s)) := by
  rw [exec, execReadNeighbours]
  exact handle_of_read h rfl (by simp) (if_pos hab)

theorem exec_readNeighbours_refused (h : s.inHandIs 0x50 (a :: b :: p))
    (hab : ¬ (a.toNat ≤ 63 ∧ 1 ≤ b.toNat ∧ b.toNat ≤ 6)) :
    exec (.readNeighbours now) s = .next (s.answered now 0x50 .badArgument []) := by
  rw [exec, execReadNeighbours]
  exact handle_of_refuse h rfl (by simp) (if_neg hab)

theorem exec_readPlan (h : s.inHandIs 0x13 (a :: b :: c :: p))
    (habc : a.toNat ≤ 1 ∧ b.toNat ≤ 31 ∧ 1 ≤ c.toNat ∧ c.toNat ≤ 8) :
    exec (.readPlan now) s = .next (s.answered now 0x13 .ok
      (planBytes (if a = 0 then s.ssc.active else s.ssc.plan) s.ssc.armed b.toNat c.toNat)) := by
  rw [exec, execReadPlan]
  refine handle_of_read h rfl (by simp) ((if_pos habc).trans ?_)
  simp only [arg1, arg_cons_zero, arg_cons_succ, toNat_eq_zero_iff]
  rfl

theorem exec_readPlan_refused (h : s.inHandIs 0x13 (a :: b :: c :: p))
    (habc : ¬ (a.toNat ≤ 1 ∧ b.toNat ≤ 31 ∧ 1 ≤ c.toNat ∧ c.toNat ≤ 8)) :
    exec (.readPlan now) s = .next (s.answered now 0x13 .badArgument []) := by
  rw [exec, execReadPlan]
  exact handle_of_refuse h rfl (by simp) (if_neg habc)

end MoreArguments

/-- No due instant has been passed over. -/
theorem startRoundIfPassed_self (h : ∀ ended due, s.ssc.phase = .between ended due → tdiff s.now due ≤ 0) :
    startRoundIfPassed s = s := by
  cases hph : s.ssc.phase with
  | running => exact startRoundIfPassed_of_running hph
  | between ended due => exact startRoundIfPassed_of_not_passed hph (h _ _ hph)
  | stopped fires => exact startRoundIfPassed_of_stopped hph

theorem exec_readSchedule (h : s.inHandIs 0x16 p)
    (hdue : ∀ ended due, s.ssc.phase = .between ended due → tdiff now due ≤ 0) :
    exec (.readSchedule now) s = .next (s.answered now 0x16 .ok (scheduleBytes s.ssc)) := by
  rw [exec, execReadSchedule]
  refine handle_of_read h rfl (Nat.zero_le _) ?_
  rw [startRoundIfPassed_self (by exact hdue)]
  rfl

end Read

/-! ## Lengths -/

@[simp] theorem b1_length (n : Nat) : (b1 n).length = 1 := by simp [b1]
@[simp] theorem b2_length (n : Nat) : (b2 n).length = 2 := by simp [b2]
@[simp] theorem b4_length (n : Nat) : (b4 n).length = 4 := by simp [b4]
@[simp] theorem b5_length (m : BitVec 40) : (b5 m).length = 5 := by simp [b5]
@[simp] theorem bAT_length (t : AT) : (bAT t).length = 4 := by simp [bAT]
@[simp] theorem bFlag_length (f : Bool) : (bFlag f).length = 1 := by simp [bFlag]
@[simp] theorem bSigned_length (i : Int) : (bSigned i).length = 1 := by simp [bSigned]
@[simp] theorem bChan_length (c : Chan) : (bChan c).length = 1 := by simp [bChan]

@[simp] theorem bOpt_length {α : Type} {width : Nat} {f : α → List Byte} (h : ∀ x, (f x).length = width)
    (x : Option α) : (bOpt width f x).length = width + 1 := by
  cases x with
  | none => simp [bOpt]
  | some x => simp [bOpt, h]

@[simp] theorem placeBytes_length (c : Option Chan) : (placeBytes c).length = 5 := by simp [placeBytes]

@[simp] theorem flatMap_length_const {α : Type} {width : Nat} {f : α → List Byte} (h : ∀ x, (f x).length = width)
    (xs : List α) : (xs.flatMap f).length = width * xs.length := by
  induction xs with
  | nil => rfl
  | cons x xs ih => rw [List.flatMap_cons, List.length_append, h, ih, List.length_cons, Nat.mul_succ, Nat.add_comm]

@[simp] theorem bRun_length {α : Type} {width : Nat} {f : α → List Byte} (h : ∀ x, (f x).length = width) (xs : List α) :
    (bRun f xs).length = 1 + width * xs.length := by simp [bRun, flatMap_length_const h]

theorem statusBytes_length (s : State) : (statusBytes s).length = 36 := by
  simp [statusBytes, radioStateBytes, allTrackers]

theorem calibrationBytes_length (s : State) : (calibrationBytes s).length = 86 := by
  simp [calibrationBytes, allChans, flatMap_length_const (width := 2)]

@[simp] theorem handOverBytes_length (h : HandOver) : (handOverBytes h).length = 35 := by simp [handOverBytes]

theorem mapBytes_length (s : State) : (mapBytes s).length = 116 := by
  simp [mapBytes, allChans, flatMap_length_const (width := 3)]

@[simp] theorem heardBytes_length (h : Heard) : (heardBytes h).length = 8 := by simp [heardBytes]

@[simp] theorem planRecordBytes_length (s : State) (r : Radio) : (planRecordBytes s r).length = 44 := by
  simp [planRecordBytes]

@[simp] theorem plannerSettingsBytes_length (x : Cpl) : (plannerSettingsBytes x).length = 7 := by
  simp [plannerSettingsBytes]

@[simp] theorem settingsBytes_length (x : TrackSettings) : (settingsBytes x).length = 9 := by simp [settingsBytes]

theorem trackerBytes_length (x : TrackSettings) (now : AT) (k : Tracker) : (trackerBytes x now k).length = 66 := by
  unfold trackerBytes
  simp only [List.length_append, b1_length, b2_length, bAT_length, bFlag_length, bChan_length, settingsBytes_length,
    bOpt_length, implies_true]

theorem channelBytes_length (m : Omap) (x : ChannelRecord) : (channelBytes m x).length = 35 := by simp [channelBytes]

@[simp] theorem grantBytes_length (g : Grant) : (grantBytes g).length = 14 := by simp [grantBytes]

theorem gateBytes_length (s : State) (r : Radio) : (gateBytes s r).length = 27 := by simp [gateBytes]

theorem linkBytes_length (x : Link) : (linkBytes x).length = 29 := by simp [linkBytes]

@[simp] theorem grantEntryBytes_length (e : GrantEntry) : (grantEntryBytes e).length = 9 := by simp [grantEntryBytes]

@[simp] theorem neighbourBytes_length (n : Nat) (x : Nat × Neighbour) : (neighbourBytes n x).length = 35 := by
  simp [neighbourBytes]

theorem neighboursBytes_length (start count : Nat) (s : State) : (neighboursBytes start count s).length
    = 14 + 35 * min count (s.ntab.entries.length - start) := by
  simp [neighboursBytes, page]
  omega

theorem planBytes_length (plan : List PlanEntry) (armed : Bool) (start count : Nat) :
    (planBytes plan armed start count).length = 3 + 2 * min count (plan.length - start) := by
  simp [planBytes, bRun_length (width := 2)]
  omega

theorem scheduleBytes_length (x : Ssc) : (scheduleBytes x).length = 49 := by simp [scheduleBytes]

/-- Settles O36: each read's answer, its length, and the arguments it refuses. -/
theorem readsAnswerAndChangeNothing : Obligations.ReadsAnswerAndChangeNothing := by
  unfold Obligations.ReadsAnswerAndChangeNothing
  intro now s
  refine ⟨fun p row hrow h => ?_, fun a rest row hrow h => ?_, fun a b rest h => ⟨fun hab => ?_, fun hab => ?_⟩,
    fun a b c rest h => ⟨fun habc => ?_, fun habc => ?_⟩, fun a rest h => ⟨fun ha => ?_, fun ha => ?_⟩,
    fun p h hdue => ⟨_, scheduleBytes_length _, exec_readSchedule h hdue⟩⟩
  · simp only [List.mem_cons, List.not_mem_nil, or_false] at hrow
    rcases hrow with rfl | rfl | rfl | rfl | rfl | rfl
    · exact ⟨_, rfl, exec_readIdentity h⟩
    · exact ⟨_, statusBytes_length _, exec_readStatus h⟩
    · exact ⟨_, calibrationBytes_length _, exec_readCalibration h⟩
    · exact ⟨_, bOpt_length handOverBytes_length _, exec_readIntake h⟩
    · exact ⟨_, mapBytes_length _, exec_readMap h⟩
    · exact ⟨_, by simp, exec_readPlanner h⟩
  · simp only [List.mem_cons, List.not_mem_nil, or_false] at hrow
    rcases hrow with rfl | rfl | rfl | rfl
    · refine ⟨fun ha => ?_, fun ha => exec_readTracker_refused h (trackerOf_eq_none ha)⟩
      obtain ⟨k, hk, -⟩ := trackerOf_of_lt ha
      exact ⟨_, trackerBytes_length _ _ _, exec_readTracker h hk⟩
    · refine ⟨fun ha => ?_, fun ha => exec_readChannel_refused h (chanOf_eq_none ha)⟩
      exact ⟨_, channelBytes_length _ _, exec_readChannel h (dif_pos ha)⟩
    · refine ⟨fun ha => ?_, fun ha => exec_readGate_refused h (radioOf_eq_none ha)⟩
      obtain ⟨r, hr, -⟩ := radioOf_of_lt ha
      exact ⟨_, gateBytes_length _ _, exec_readGate h hr⟩
    · refine ⟨fun ha => ?_, fun ha => exec_readLink_refused h (radioOf_eq_none ha)⟩
      obtain ⟨r, hr, -⟩ := radioOf_of_lt ha
      exact ⟨_, linkBytes_length _, exec_readLink h hr⟩
  · exact ⟨_, neighboursBytes_length _ _ _, exec_readNeighbours h hab⟩
  · exact exec_readNeighbours_refused h hab
  · exact ⟨_, planBytes_length _ _ _ _, exec_readPlan h habc⟩
  · exact exec_readPlan_refused h habc
  · exact ⟨_, bRun_length grantEntryBytes_length _, exec_readGrants h (bandOfCode_of_le ha)⟩
  · exact exec_readGrants_refused h (bandOfCode_eq_none ha)

end Sys2Proof.Machine
end

section
/-! The values that the read commands report, byte by byte (R184 and the read rules of each chapter). -/

namespace Sys2Proof.Machine

set_option Elab.async false

/-! ## The forms of values -/

theorem b4_eq (n : Nat) : b4 n = b2 (n / 65536) ++ b2 n := by
  simp [b4, b2, Nat.div_div_eq_div_mul]

theorem bFlag_eq (f : Bool) : bFlag f = b1 (if f then 1 else 0) := by cases f <;> rfl

theorem bOpt_eq {α : Type} (width : Nat) (f : α → List Byte) (x : Option α) :
    bOpt width f x = match x.map f with
      | none => 0 :: List.replicate width 0
      | some bytes => 1 :: bytes := by
  cases x <;> rfl

theorem bandCode_bandOf (c : Chan) : bandCode (bandOf c) = if c.val ≤ 12 then 0 else 1 := by
  unfold bandOf
  split <;> rfl

theorem trackerStateCode_eq (x : Tracker) : trackerStateCode x = match x.oven.map (·.phase) with
    | none => 0
    | some (.search _) => 1
    | some .locked => 2
    | some (.holdover _) => 3 := by
  obtain ⟨oven, mode, guard⟩ := x
  cases oven with
  | none => rfl
  | some o => cases h : o.phase <;> simp [trackerStateCode, h]

/-! ## The flags and the loads of READ MAP -/

/-- READ MAP (R90): one channel's three bytes. -/
def mapEntry (s : State) (c : Chan) : List Byte := b2 (s.chan c).load ++ b1 (summaryFlags (s.chan c))

/-- An entry of a run of entries of one width. -/
theorem flatMap_getElem? {α : Type} {width : Nat} {f : α → List Byte} (hf : ∀ x, (f x).length = width) {xs : List α}
    {i j : Nat} (hj : j < width) (hi : i < xs.length) : (xs.flatMap f)[width * i + j]? = (f xs[i])[j]? := by
  induction xs generalizing i with
  | nil => exact absurd hi (Nat.not_lt_zero _)
  | cons x xs ih =>
    rw [List.flatMap_cons]
    cases i with
    | zero =>
      rw [List.getElem?_append_left (by rw [hf]; omega)]
      simp
    | succ i =>
      have hpos : width * (i + 1) + j = width + (width * i + j) := by rw [Nat.mul_succ]; omega
      rw [hpos, List.getElem?_append_right (by rw [hf]; omega), hf, Nat.add_sub_cancel_left,
        ih (Nat.lt_of_succ_lt_succ hi)]
      rfl

theorem mapBytes_getElem? (s : State) (c : Chan) {j : Nat} (hj : j < 3) :
    (mapBytes s)[2 + (3 * c.val + j)]? = (mapEntry s c)[j]? := by
  have hc : c.val < allChans.length := by simp [allChans]
  have hidx : allChans[c.val] = c := by simp [allChans]
  have hwidth (x : Chan) : (mapEntry s x).length = 3 := by simp [mapEntry]
  show (b2 s.omap.passRound.toNat ++ allChans.flatMap (mapEntry s))[2 + (3 * c.val + j)]? = _
  rw [List.getElem?_append_right (by rw [b2_length]; omega), b2_length, Nat.add_sub_cancel_left,
    flatMap_getElem? hwidth hj hc, hidx]

/-- The bits of a channel's flags. -/
theorem summaryFlags_bits (x : ChannelRecord) (f : Byte) (hf : f = BitVec.ofNat 8 (summaryFlags x)) :
    f.getLsbD 0 = x.permitted ∧ f.getLsbD 1 = x.overRange ∧ f.getLsbD 2 = x.underRange ∧ f.getLsbD 3 = x.bad
    ∧ f.getLsbD 4 = x.barredUntil.isSome ∧ f.getLsbD 5 = x.heldOut ∧ f.getLsbD 6 = false ∧ f.getLsbD 7 = false := by
  subst hf
  unfold summaryFlags
  generalize x.permitted = p, x.overRange = o, x.underRange = u, x.bad = b, x.barredUntil.isSome = r, x.heldOut = h
  revert p o u b r h
  decide

theorem extractLsb'_ofNat_high (x : BitVec 16) : BitVec.ofNat 8 (x.toNat / 256) = x.extractLsb' 8 8 := by
  apply BitVec.eq_of_toNat_eq
  simp [BitVec.extractLsb'_toNat, Nat.shiftRight_eq_div_pow]

theorem extractLsb'_ofNat_low (x : BitVec 16) : BitVec.ofNat 8 x.toNat = x.extractLsb' 0 8 := by
  apply BitVec.eq_of_toNat_eq
  simp [BitVec.extractLsb'_toNat]

theorem page_eq {α : Type} (start count : Nat) (xs : List α) :
    page start count xs = ((xs.zipIdx.drop start).take count).map Prod.swap := by
  rw [page, List.zipIdx_eq_zip_range', ← List.range_eq_range', List.map_take, List.map_drop, List.zip_swap]

/-! ## The values of the schedule, a tracker, a gate -/

theorem nextDue_map (x : Ssc) (f : AT → List Byte) : (nextDue x).map f = match x.phase with
    | .between _ due => some (f due)
    | _ => none := by
  unfold nextDue
  cases x.phase <;> rfl

theorem readyOf_map (c : Condition) (f : AT → List Byte) : (readyOf c).map f = match c with
    | .opened ready _ => some (f ready)
    | .ordered _ => none := by
  cases c <;> rfl

theorem searchStart_map (o : Oven) (f : AT → List Byte) : (searchStart o).map f = match o.phase with
    | .search b => some (f b)
    | _ => none := by
  unfold searchStart
  cases o.phase <;> rfl

theorem holdoverStart_map (o : Oven) (f : AT → List Byte) : (holdoverStart o).map f = match o.phase with
    | .holdover b => some (f b)
    | _ => none := by
  unfold holdoverStart
  cases o.phase <;> rfl

theorem nextTimeout_map (x : TrackSettings) (o : Oven) (f : AT → List Byte) : (nextTimeout x o).map f = match o.phase with
    | .search b => some (f (b + 400000))
    | .locked => none
    | .holdover b => some (f (b + BitVec.ofNat 32 (x.holdoverMs * 1000))) := by
  unfold nextTimeout
  cases o.phase <;> rfl

theorem modeBefore_map (m : GateState) (f : HostMode → List Byte) : (modeBefore m).map f = match m with
    | .safe m => some (f m)
    | .host _ => none := by
  cases m <;> rfl

theorem b1_radioCode (r : Radio) : b1 (radioCode r) = [if r = .r0 then 0x00 else 0x01] := by cases r <;> rfl

/-- Settles O37: each payload, its values in the forms of R184. -/
theorem readsReportTheState : Obligations.ReadsReportTheState := by
  unfold Obligations.ReadsReportTheState
  intro now s one two four time flag signed chan opt place
  have hone : b1 = one := rfl
  have htwo : b2 = two := rfl
  have hfour : b4 = four := funext b4_eq
  have htime : bAT = time := funext fun t => b4_eq t.toNat
  have htimeFour (t : AT) : time t = four t.toNat := rfl
  have hflag : bFlag = flag := funext bFlag_eq
  have hsigned : bSigned = signed := rfl
  have hchan : bChan = chan := rfl
  have hopt {α : Type} (w) (f : α → List Byte) (x) : bOpt w f x = opt w (x.map f) := bOpt_eq w f x
  have hplace (r) : placeBytes (s.link r).chan = place r := by
    simp only [placeBytes, bandCode_bandOf, hone, hflag, hopt]
    rfl
  refine ⟨⟨rfl, rfl, rfl, rfl, rfl, rfl, rfl, rfl, rfl, rfl, rfl, rfl, rfl, rfl, trackerStateCode_eq⟩, ?_⟩
  clear_value place opt chan signed flag time four two one
  refine ⟨fun p h => ?_, fun p h => ?_, fun a b c rest h ha hb hc hc' => ?_, fun p h hdue => ?_, fun p h => ?_,
    fun p h => ?_, fun a rest k h ha => ?_, fun a rest c h ha => ?_, fun p h => ?_, fun a b rest h ha hb hb' => ?_,
    fun p h => ?_, fun a rest r ha => ⟨fun h => ?_, fun h => ?_⟩, fun a rest h => ⟨fun b hb => ?_, fun ha => ?_⟩⟩
  · rw [exec_readIdentity h]
    simp only [b1, BitVec.ofNat_toNat]
    rfl
  · rw [exec_readStatus h]
    simp only [statusBytes, radioStateBytes, allTrackers, List.flatMap_cons, List.flatMap_nil, List.append_nil,
      hone, htwo, hfour, htime, hflag, hchan, hopt, List.append_assoc]
    rfl
  · rw [exec_readPlan h ⟨ha, hb, hc, hc'⟩]
    simp only [planBytes, bRun, hone, hflag, hchan, List.append_assoc]
  · rw [exec_readSchedule h hdue]
    simp only [scheduleBytes, hone, htwo, htime, hflag, hchan, hopt, nextDue_map, readyOf_map, List.append_assoc] <;> rfl
  · rw [exec_readCalibration h]
    simp only [calibrationBytes, b5, hone, hfour, hflag, hsigned, hopt, List.append_assoc]
  · rw [exec_readIntake h]
    unfold handOverBytes
    simp only [hone, hfour, htime, hchan, hopt, List.append_assoc]
  · rw [exec_readTracker h (trackerOf_of_code ha)]
    unfold trackerBytes
    simp only [settingsBytes, nextWindow, addInt, hone, htwo, htime, hflag, hchan, hopt, Option.map_bind,
      Function.comp_def, searchStart_map, holdoverStart_map, nextTimeout_map, List.append_assoc] <;> rfl
  · rw [exec_readChannel h (chanOf_of_val_eq ha.symm)]
    simp only [channelBytes, threshold, hone, htwo, hfour, htime, hflag, hsigned, hopt, List.append_assoc]
  · refine ⟨_, exec_readMap h, mapBytes_length s, congrArg some (extractLsb'_ofNat_high _),
      congrArg some (extractLsb'_ofNat_low _), fun c => ⟨?_, ?_, _, ?_, summaryFlags_bits _ _ rfl⟩⟩
    · exact mapBytes_getElem? s c (j := 0) (by decide)
    · rw [Nat.add_right_comm 2 1, Nat.add_assoc 2]
      exact mapBytes_getElem? s c (j := 1) (by decide)
    · rw [Nat.add_right_comm 2 2, Nat.add_assoc 2]
      exact mapBytes_getElem? s c (j := 2) (by decide)
  · rw [exec_readNeighbours h ⟨ha, hb, hb'⟩]
    simp only [neighboursBytes, bRun, page_eq, List.length_map, List.flatMap_map, neighbourBytes, ageOf, Prod.fst_swap,
      Prod.snd_swap, hone, htwo, hfour, htime, htimeFour, hflag, hchan, List.append_assoc]
  · rw [exec_readPlanner h]
    unfold plannerSettingsBytes planRecordBytes heardBytes
    simp only [hplace, hone, htwo, hfour, htime, hflag, hchan, hopt,
      List.append_assoc]
  · rw [exec_readGate h (radioOf_of_code ha)]
    unfold gateBytes grantBytes
    simp only [hplace, hone, htwo, htime, hflag, hopt, modeBefore_map, List.append_assoc] <;> rfl
  · rw [exec_readLink h (radioOf_of_code ha)]
    simp only [linkBytes, hplace, hone, htwo, htime, hflag, hopt, List.append_assoc]
  · have hband : bandOfCode a = some b := by cases b <;> simp [hb, bandOfCode]
    rw [exec_readGrants h hband]
    unfold grantEntryBytes
    simp only [bRun, b1_radioCode]
    simp only [hone, htime, List.cons_append, List.nil_append]
  · exact exec_readGrants_refused h (bandOfCode_eq_none ha)

end Sys2Proof.Machine
end

section
/-! Bursts (chapters 2 and 3): those discarded, OWN and WEAK, the classes of a 2.4 GHz burst, seeding, the hit update, and a burst
taken while the front end is PARKED. -/

namespace Sys2Proof.Machine

set_option Elab.async false

/-! ## A burst discarded, OWN or WEAK -/

section Burst

variable {s : State} {d : Dwell} {ready now : AT} {id : Byte} {off n : Nat} {raw : Byte}

theorem exec_burst (hs : s.senses) (id : Byte) (off : BitVec 24) (dur : BitVec 16) (raw : Byte) (x y : Bool) :
    exec (.burst now id off dur raw x y) s
      = .next (burstRecord id off.toNat dur.toNat raw x y (s.withNow now)) :=
  senseEvent_taken hs

theorem burstRecord_of_none (x y : Bool) (h : ∀ d ready, ¬ s.burstFor id d ready) :
    burstRecord id off n raw x y s = s := by
  have hnone : burstDwell s.ssc id = none := by
    refine Option.eq_none_iff_forall_ne_some.mpr fun ⟨d, ready⟩ hd => h d ready (burstDwell_eq_some_iff.mp hd)
  rw [burstRecord, hnone]

theorem burstRecord_of_reference (x y : Bool) (hd : s.burstFor id d ready) (hk : d.kind = .reference) :
    burstRecord id off n raw x y s = s := by
  rw [burstRecord, burstDwell_eq_some_iff.mpr hd]
  exact if_pos hk

theorem takeBurst_of_beyond (x y : Bool) (hoff : d.lengthMs * 1000 ≤ off) : takeBurst d ready off n raw x y s = s :=
  if_pos hoff

theorem takeBurst_of_own (x y : Bool) (hoff : off < d.lengthMs * 1000)
    (hown : s.burstOwn (bandOf d.chan) (addUs ready off) n) :
    takeBurst d ready off n raw x y s
      = s.onTally d.id fun t => { t with counts := { t.counts with own := min 255 (t.counts.own + 1) } } := by
  rw [← isOwn_iff] at hown
  simp only [takeBurst, Nat.not_le.mpr hoff, hown, if_true, if_false]
  rfl

theorem takeBurst_of_weak (x y : Bool) (hoff : off < d.lengthMs * 1000)
    (hown : ¬ s.burstOwn (bandOf d.chan) (addUs ready off) n) (hweak : ¬ s.burstStrong d.chan raw) :
    takeBurst d ready off n raw x y s = (s.sawBurst d raw).onTally d.id fun t =>
      { t with counts := { t.counts with weak := min 255 (t.counts.weak + 1) } } := by
  rw [← threshold_le_corrected_iff, Nat.not_le] at hweak
  rw [← isOwn_iff] at hown
  simp only [takeBurst, markOver_if_saturated, Nat.not_le.mpr hoff, hown, hweak, Bool.false_eq_true, if_true, if_false]
  rfl

theorem State.sawBurst_of_lt (h : raw.toNat < 240) : s.sawBurst d raw = s := if_pos h

theorem State.sawBurst_of_le (h : 240 ≤ raw.toNat) : s.sawBurst d raw
    = if (s.chan d.chan).overRange = true then
        (s.onTally d.id fun x => { x with saturated := true }).setChan d.chan { s.chan d.chan with overRange := true }
      else raise .range d.chan.val ((s.onTally d.id fun x => { x with saturated := true }).setChan d.chan
        { s.chan d.chan with overRange := true }) :=
  if_neg (by omega)

theorem State.sawBurst_omap (h : 240 ≤ raw.toNat) :
    (s.sawBurst d raw).omap = (s.setChan d.chan { s.chan d.chan with overRange := true }).omap := by
  rw [State.sawBurst_of_le h]
  split <;> rfl

theorem State.sawBurst_events (h : 240 ≤ raw.toNat) : (s.sawBurst d raw).events
    = if (s.chan d.chan).overRange = true then s.events else (raise .range d.chan.val s).events := by
  rw [State.sawBurst_of_le h]
  split <;> rfl

end Burst

/-- Settles O38: the bursts of no dwell, beyond the dwell, OWN and WEAK. -/
theorem burstOwnWeakOrDiscarded : Obligations.BurstOwnWeakOrDiscarded := by
  unfold Obligations.BurstOwnWeakOrDiscarded
  intro now id off dur raw x y s hs hline
  refine ⟨fun hnone => ?_, fun d ready hd => ?_⟩
  · rw [exec_burst hs, burstRecord_of_none (s := s.withNow now) x y hnone]
  have hid : d.id = id := hd.1
  have htaken (hk : d.kind ≠ .reference) {u : State}
      (hu : takeBurst d ready off.toNat dur.toNat raw x y (s.withNow now) = u) (hl : u.ssc = s.ssc) :
      exec (.burst now id off dur raw x y) s = .next u := by
    rw [exec_burst_of_burstFor hs hd hk, hu, wakeIfParked_of_line_ne (hl ▸ hline)]
  refine ⟨fun hout => ?_, fun hk hoff => ⟨fun hown => ?_, fun hown hweak => ⟨fun hraw => ?_, fun hraw => ?_⟩⟩⟩
  · by_cases hk : d.kind = .reference
    · rw [exec_burst hs, burstRecord_of_reference (s := s.withNow now) x y hd hk]
    · exact htaken hk (takeBurst_of_beyond x y (hout.resolve_left hk)) rfl
  · rw [← hid] at htaken ⊢
    exact htaken hk (takeBurst_of_own (s := s.withNow now) x y hoff hown) rfl
  · rw [← hid] at htaken ⊢
    refine htaken hk ((takeBurst_of_weak (s := s.withNow now) x y hoff hown hweak).trans ?_) rfl
    rw [State.sawBurst_of_lt hraw]
  · have htouch : touchesOnly [.now, .bcl, .omap, .events] s ((s.withNow now).sawBurst d raw) :=
      (withNow_touches s now).step (State.sawBurst_touches _ d raw)
    refine ⟨_, htaken hk (takeBurst_of_weak (s := s.withNow now) x y hoff hown hweak) (htouch .ssc (by decide)).symm, ?_,
      State.sawBurst_omap (s := s.withNow now) hraw, State.sawBurst_events (s := s.withNow now) hraw,
      htouch.trans (onTally_touches _ _ _).mono⟩
    have hmark : decide (240 ≤ raw.toNat) = true := decide_eq_true hraw
    rw [State.onTally_bcl_congr (State.sawBurst_bcl (s.withNow now) d raw), State.onTally_onTally (by exact fun _ => rfl),
      hid]
    simp only [hmark, Bool.or_true]
    rfl

/-! ## A burst while the front end is PARKED -/

section WithSsc

variable (s : State) (x : Ssc)

theorem onTally_withSsc (id : Byte) (f : Tally → Tally) : (s.withSsc x).onTally id f = (s.onTally id f).withSsc x := rfl

theorem sawBurst_withSsc (d : Dwell) (raw : Byte) : (s.withSsc x).sawBurst d raw = (s.sawBurst d raw).withSsc x := by
  by_cases h : raw.toNat < 240
  · rw [State.sawBurst_of_lt h, State.sawBurst_of_lt h]
  · rw [State.sawBurst_of_le (by omega), State.sawBurst_of_le (by omega)]
    show (if (s.chan d.chan).overRange = true then _ else _) = _
    split <;> rfl

theorem takeHit_withSsc (f : Offer) (k : TrackerId) : takeHit f k (s.withSsc x) = (takeHit f k s).withSsc x := by
  unfold takeHit
  rw [show (s.withSsc x).tracker k = s.tracker k from rfl]
  cases (s.tracker k).oven with
  | none => rfl
  | some o =>
    simp only [State.withSsc_otk]
    split <;> rfl

theorem seed_withSsc (f : Offer) : seed f (s.withSsc x) = (seed f s).withSsc x := by
  unfold seed
  rw [show idleTracker (s.withSsc x) = idleTracker s from rfl]
  split <;> rfl

theorem offerBurst_withSsc (f : Offer) (us : Nat) : offerBurst f us (s.withSsc x) = (offerBurst f us s).withSsc x := by
  unfold offerBurst
  rw [show takerOf (s.withSsc x) f.start = takerOf s f.start from rfl]
  split
  · rw [takeHit_withSsc]
    rfl
  · split
    · rw [seed_withSsc]
      rfl
    · rfl

theorem bandTests_withSsc (f : Offer) (us : Nat) : bandTests f us (s.withSsc x) = (bandTests f us s).withSsc x := by
  unfold bandTests
  split
  · rfl
  · split
    · rfl
    · split
      · exact offerBurst_withSsc s x f us
      · rfl

/-- R14: the classifier does not read the schedule. -/
theorem takeBurst_withSsc (d : Dwell) (ready : AT) (off n : Nat) (raw : Byte) (cs ce : Bool) :
    takeBurst d ready off n raw cs ce (s.withSsc x) = (takeBurst d ready off n raw cs ce s).withSsc x := by
  unfold takeBurst
  simp only [markOver_if_saturated, sawBurst_withSsc, bandTests_withSsc, onTally_eq, onTally_withSsc]
  rw [show isOwn (s.withSsc x) = isOwn s from rfl]
  split
  · rfl
  · split
    · rfl
    · show (if corrected raw (s.chan d.chan).correction < threshold s.omap.margin (s.chan d.chan) then _ else _) = _
      split <;> rfl

end WithSsc

/-! ## The classes of a 2.4 GHz burst -/

section Ghz24

variable {s : State} {f : Offer} {us : Nat} (hband : bandOf f.chan = .ghz24)
include hband

theorem bandTests_of_long (h : 12000 < f.duration) : bandTests f us s = s.onTally f.id (tallied .other us) := by
  rw [bandTests, hband]
  exact if_pos h

theorem bandTests_of_short (h : f.duration < 1000) : bandTests f us s = s.onTally f.id (tallied .frame us) := by
  rw [bandTests, hband]
  exact (if_neg (show ¬ 12000 < f.duration by omega)).trans (if_neg (show ¬ 1000 ≤ f.duration by omega))

theorem bandTests_of_offered (hlo : 1000 ≤ f.duration) (hhi : f.duration ≤ 12000) :
    bandTests f us s = offerBurst f us s := by
  rw [bandTests, hband]
  exact (if_neg (show ¬ 12000 < f.duration by omega)).trans (if_pos hlo)

end Ghz24

/-! ## The taker of a burst -/

section Taker

variable {s : State} {start : AT}

/-- R49, R50: no tracker matches. -/
def NoMatch (s : State) (start : AT) : Prop :=
  ∀ k o, (s.tracker k).oven = some o → s.otk.settings.tolerance < (phaseError o start).natAbs

theorem takerAt_of_matching {k : TrackerId} {o : Oven} (ho : (s.tracker k).oven = some o)
    (hm : (phaseError o start).natAbs ≤ s.otk.settings.tolerance) :
    takerAt s start k = some (k, (phaseError o start).natAbs) := by
  rw [takerAt, ho]
  exact if_pos (decide_eq_true hm)

theorem takerAt_some {k : TrackerId} {y : TrackerId × Nat} (h : takerAt s start k = some y) :
    ∃ o, (s.tracker k).oven = some o ∧ (phaseError o start).natAbs ≤ s.otk.settings.tolerance
      ∧ y = (k, (phaseError o start).natAbs) := by
  unfold takerAt at h
  split at h
  · exact absurd h (by simp)
  · next o ho =>
    split at h
    · next hm => exact ⟨o, ho, of_decide_eq_true hm, (Option.some.inj h).symm⟩
    · exact absurd h (by simp)

theorem takerAt_of_noMatch (h : NoMatch s start) (k : TrackerId) : takerAt s start k = none := by
  refine Option.eq_none_iff_forall_ne_some.mpr fun y hy => ?_
  obtain ⟨o, ho, hm, -⟩ := takerAt_some hy
  exact absurd hm (Nat.not_le.mpr (h k o ho))

theorem takerOf_of_noMatch (h : NoMatch s start) : takerOf s start = none := by
  simp only [takerOf, takerAt_of_noMatch h, nearer, Option.map_none]

theorem nearer_eq_left {x : TrackerId × Nat} {b : Option (TrackerId × Nat)} (h : ∀ y, b = some y → x.2 ≤ y.2) :
    nearer (some x) b = some x := by
  cases b with
  | none => rfl
  | some y => exact if_neg (Nat.not_lt.mpr (h y rfl))

theorem nearer_eq_right {a : Option (TrackerId × Nat)} {y : TrackerId × Nat} (h : ∀ x, a = some x → y.2 < x.2) :
    nearer a (some y) = some y := by
  cases a with
  | none => rfl
  | some x => exact if_pos (h x rfl)

theorem nearer_some {a b : Option (TrackerId × Nat)} {x : TrackerId × Nat} (h : nearer a b = some x) :
    a = some x ∨ b = some x := by
  cases a with
  | none => exact .inr h
  | some a =>
    cases b with
    | none => exact .inl h
    | some b =>
      by_cases hlt : b.2 < a.2
      · exact .inr ((if_pos hlt).symm.trans h)
      · exact .inl ((if_neg hlt).symm.trans h)

/-- R50: the matching tracker of least error, the lowest number first. -/
theorem takerOf_of_nearest {k : TrackerId} {e : Nat} (hk : takerAt s start k = some (k, e))
    (hj : ∀ j y, j ≠ k → takerAt s start j = some y → e < y.2 ∨ (e = y.2 ∧ trackerCode k < trackerCode j)) :
    takerOf s start = some k := by
  have hle {j y} (hne : j ≠ k) (h : takerAt s start j = some y) : e ≤ y.2 := by
    have := hj j y hne h
    omega
  have hlt {j y} (hne : j ≠ k) (hcode : trackerCode j < trackerCode k) (h : takerAt s start j = some y) : e < y.2 := by
    have := hj j y hne h
    omega
  unfold takerOf
  cases k with
  | t0 =>
    rw [hk, nearer_eq_left fun y hy => hle (j := .t1) (by decide) hy, nearer_eq_left fun y hy => hle (j := .t2) (by decide) hy]
    rfl
  | t1 =>
    rw [hk, nearer_eq_right fun y hy => hlt (j := .t0) (by decide) (by decide) hy,
      nearer_eq_left fun y hy => hle (j := .t2) (by decide) hy]
    rfl
  | t2 =>
    rw [hk, nearer_eq_right fun y hy => (nearer_some hy).elim (hlt (j := .t0) (by decide) (by decide))
      (hlt (j := .t1) (by decide) (by decide))]
    rfl

end Taker

/-! ## Seeding -/

section Seed

variable {s : State} {f : Offer}

theorem offerBurst_of_noMatch_long {us : Nat} (h : NoMatch s f.start) (hn : 5484 < f.duration) :
    offerBurst f us s = (seed f s).onTally f.id (tallied .oven us) := by
  rw [offerBurst, takerOf_of_noMatch h]
  exact if_pos hn

theorem offerBurst_of_noMatch_short {us : Nat} (h : NoMatch s f.start) (hn : f.duration ≤ 5484) :
    offerBurst f us s = s.onTally f.id (tallied .frame us) := by
  rw [offerBurst, takerOf_of_noMatch h]
  exact if_neg (Nat.not_lt.mpr hn)

theorem idleTracker_of_lowest {k : TrackerId} (hk : (s.tracker k).oven = none)
    (hlow : ∀ j, trackerCode j < trackerCode k → (s.tracker j).oven ≠ none) : idleTracker s = some k := by
  have h0 : k ≠ .t0 → (s.tracker .t0).oven.isNone = false := fun h =>
    Option.isNone_eq_false_iff.mpr (Option.isSome_iff_ne_none.mpr (hlow .t0 (by cases k <;> simp_all [trackerCode])))
  have h1 : k = .t2 → (s.tracker .t1).oven.isNone = false := fun h =>
    Option.isNone_eq_false_iff.mpr (Option.isSome_iff_ne_none.mpr (hlow .t1 (by subst h; decide)))
  cases k <;> simp_all [idleTracker, allTrackers]

theorem idleTracker_of_full (h : ∀ k, (s.tracker k).oven ≠ none) : idleTracker s = none := by
  simp [idleTracker, h]

theorem seed_of_full (h : ∀ k, (s.tracker k).oven ≠ none) : seed f s = raise .trackersFull f.chan.val s := by
  rw [seed, idleTracker_of_full h]

theorem seed_of_lowest {k : TrackerId} (hk : (s.tracker k).oven = none)
    (hlow : ∀ j, trackerCode j < trackerCode k → (s.tracker j).oven ≠ none) :
    seed f s = s.setTracker k { s.tracker k with oven := some (seedOven s (s.tracker k) f) } := by
  rw [seed, idleTracker_of_lowest hk hlow]

theorem firstCandidate_eq (mh : BitVec 2) : firstCandidate mh = if mh.toNat ≤ 1 then .hz50 else .hz60 := by
  revert mh
  decide

theorem nominalPeriod_firstCandidate (mh : BitVec 2) :
    nominalPeriod (firstCandidate mh) = if mh.toNat ≤ 1 then 20000 else 16667 := by
  revert mh
  decide

theorem guardFor_eq (mode : GuardMode) (fixed jitter : Nat) :
    guardFor mode fixed jitter = if mode = .fixed then fixed else min 2000 (max 100 (2 * jitter + 200)) := by
  cases mode <;> rfl

end Seed

/-- R30, R31: a burst that no tracker takes, long enough for an oven. -/
theorem bandTests_of_seeding {s : State} {f : Offer} {us : Nat} (hband : bandOf f.chan = .ghz24) (hlo : 5485 ≤ f.duration)
    (hhi : f.duration ≤ 12000) (h : NoMatch s f.start) :
    bandTests f us s = (seed f s).onTally f.id (tallied .oven us) :=
  (bandTests_of_offered hband (by omega) hhi).trans (offerBurst_of_noMatch_long h hlo)

/-- R30: a burst of a frame's length that no tracker takes. -/
theorem bandTests_of_frame {s : State} {f : Offer} {us : Nat} (hband : bandOf f.chan = .ghz24)
    (h : f.duration < 1000 ∨ (f.duration ≤ 5484 ∧ NoMatch s f.start)) :
    bandTests f us s = s.onTally f.id (tallied .frame us) := by
  by_cases hshort : f.duration < 1000
  · exact bandTests_of_short hband hshort
  · obtain ⟨hle, hnone⟩ := h.resolve_left hshort
    exact (bandTests_of_offered hband (by omega) (by omega)).trans (offerBurst_of_noMatch_short hnone hle)

/-! ## A 2.4 GHz burst that is neither OWN nor WEAK -/

section Strong

variable (s : State) (d : Dwell) (raw : Byte)

theorem State.sawBurst_ssc : (s.sawBurst d raw).ssc = s.ssc := (State.sawBurst_touches s d raw .ssc (by decide)).symm
theorem State.sawBurst_otk : (s.sawBurst d raw).otk = s.otk := (State.sawBurst_touches s d raw .otk (by decide)).symm
theorem State.sawBurst_now : (s.sawBurst d raw).now = s.now := (State.sawBurst_touches s d raw .now (by decide)).symm
theorem State.sawBurst_host : (s.sawBurst d raw).host = s.host := (State.sawBurst_touches s d raw .host (by decide)).symm

theorem State.sawBurst_tracker (k : TrackerId) : (s.sawBurst d raw).tracker k = s.tracker k := by
  rw [State.tracker, State.sawBurst_otk]
  rfl

variable {s d raw} {now ready : AT} {id : Byte} {off : BitVec 24} {dur : BitVec 16}

theorem exec_burst_of_ghz24 (x y : Bool) (hs : s.senses) (hline : s.ssc.line ≠ .parked) (hd : s.burstFor id d ready)
    (hk : d.kind ≠ .reference) (hoff : off.toNat < d.lengthMs * 1000) (hchan : d.chan.val ≤ 12)
    (hown : ¬ s.burstOwn .ghz24 (ready + BitVec.ofNat 32 off.toNat) dur.toNat) (hstrong : s.burstStrong d.chan raw)
    {u : State} (hu : bandTests ⟨id, d.chan, ready + BitVec.ofNat 32 off.toNat, dur.toNat, x, y⟩
      (min dur.toNat (d.lengthMs * 1000 - off.toNat)) ((s.withNow now).sawBurst d raw) = u) (hl : u.ssc = s.ssc) :
    exec (.burst now id off dur raw x y) s = .next u := by
  have hid : d.id = id := hd.1
  rw [exec_burst_of_burstFor hs hd hk, takeBurst_of_strong (s := s.withNow now) x y hoff
    (bandOf_of_le_12 hchan ▸ hown) hstrong, hid]
  exact (congrArg (fun v => Host.Outcome.next (wakeIfParked v)) hu).trans
    (congrArg _ (wakeIfParked_of_line_ne (hl ▸ hline)))

end Strong

/-- R52: the tracker that a burst seeds. -/
theorem seed_sawBurst {s : State} {d : Dwell} {raw : Byte} {f : Offer} {k : TrackerId} (hk : (s.tracker k).oven = none)
    (hlow : ∀ j, trackerCode j < trackerCode k → (s.tracker j).oven ≠ none) :
    seed f (s.sawBurst d raw) = (s.sawBurst d raw).setTracker k { s.tracker k with oven := some {
      phase := .search s.now, candidate := if s.host.mains.toNat ≤ 1 then .hz50 else .hz60, secondTried := false
      period := if s.host.mains.toNat ≤ 1 then 20000 else 16667
      anchor := f.start, lastHit := f.start
      width := if f.cutStart || f.cutEnd then 8000 else min 12000 (max 3000 f.duration)
      guardUs := if (s.tracker k).mode = .fixed then (s.tracker k).fixedGuard else 200
      jitter := 0, hits := 1, misses := 0, lo := f.chan, hi := f.chan, hitSets := [⟨f.id, [f.start]⟩] } } := by
  rw [seed_of_lowest (by rw [State.sawBurst_tracker]; exact hk)
    fun j hj => by rw [State.sawBurst_tracker]; exact hlow j hj, State.sawBurst_tracker]
  simp only [seedOven, State.sawBurst_now, State.sawBurst_host, nominalPeriod_firstCandidate, guardFor_eq]
  rw [firstCandidate_eq]
  rfl

/-- Settles O40: the same burst while PARKED and its boundary; the classes by length, and the seed of one that no tracker
takes. -/
theorem twoFourBurstsClassed : Obligations.TwoFourBurstsClassed := by
  unfold Obligations.TwoFourBurstsClassed
  intro now id off dur raw x y s d ready hs hd hk
  refine ⟨fun hline u hu => ?_, ?_⟩
  · have hexec := exec_burst_of_burstFor (now := now) hs hd hk off dur raw x y
    have hrunning := exec_burst_of_burstFor (now := now) (s := s.withSsc { s.ssc with line := .running }) hs hd hk
      off dur raw x y
    have hcommute := takeBurst_withSsc (s.withNow now) { s.ssc with line := .running } d ready off.toNat dur.toNat raw x y
    have hkept := (takeBurst_touches d ready off.toNat dur.toNat raw x y (s.withNow now) .ssc (by decide)).symm
    have hnow := (takeBurst_touches d ready off.toNat dur.toNat raw x y (s.withNow now) .now (by decide)).symm
    have hcomm' : takeBurst d ready off.toNat dur.toNat raw x y ((s.withSsc { s.ssc with line := .running }).withNow now)
        = _ := hcommute
    rw [hcomm'] at hrunning
    generalize takeBurst d ready off.toNat dur.toNat raw x y (s.withNow now) = v at *
    have huv : u = v.withSsc { s.ssc with line := .running } := by
      refine Host.Outcome.next.inj (hu.symm.trans (hrunning.trans (congrArg _ ?_)))
      exact wakeIfParked_of_line_ne (s := v.withSsc { s.ssc with line := .running }) (LineState.noConfusion ·)
    have hv : { u with ssc := { u.ssc with line := .parked } } = v := by
      have hssc : v.ssc = { s.ssc with line := .parked } := by rw [← hline]; exact hkept
      rw [huv]
      show v.withSsc { s.ssc with line := .parked } = v
      rw [← hssc]
      rfl
    rw [hv]
    have hparked : v.ssc.line = .parked := (congrArg Ssc.line hkept).trans hline
    obtain rfl : v.now = now := hnow
    exact ⟨fun hw => hexec.trans (congrArg _ (wakeIfParked_of_parked hparked hw)),
      fun hw => hexec.trans (congrArg _ ((wakeIfParked_wakes v).2 fun h => hw h.2))⟩
  · intro hline hoff hchan hstrong us start n seen oven noMatch hown
    have hband : bandOf d.chan = .ghz24 := bandOf_of_le_12 hchan
    have hexec {u : State} := exec_burst_of_ghz24 (now := now) (u := u) x y hs hline hd hk hoff hchan hown hstrong
    have hssc : seen.ssc = s.ssc := State.sawBurst_ssc (s.withNow now) d raw
    have hmatch (h : noMatch) : NoMatch seen start := fun k o ho => by
      rw [State.sawBurst_tracker] at ho
      rw [State.sawBurst_otk]
      exact h k o ho
    let f : Offer := ⟨id, d.chan, start, n, x, y⟩
    refine ⟨fun hlong => hexec (bandTests_of_long (f := f) hband hlong) hssc,
      fun hframe => hexec (bandTests_of_frame (f := f) hband (hframe.imp_right fun h => ⟨h.1, hmatch h.2⟩)) hssc,
      fun hlo hhi hnone => ⟨fun hfull => ?_, fun k hidle hlow => ?_⟩⟩
    · have hfull' (k : TrackerId) : (seen.tracker k).oven ≠ none := by
        rw [State.sawBurst_tracker]
        exact hfull k
      exact hexec ((bandTests_of_seeding (f := f) hband hlo hhi (hmatch hnone)).trans
        (congrArg (State.onTally · id (tallied .oven us)) (seed_of_full hfull'))) hssc
    · exact hexec ((bandTests_of_seeding (f := f) hband hlo hhi (hmatch hnone)).trans
        (congrArg (State.onTally · id (tallied .oven us)) (seed_sawBurst (s := s.withNow now) hidle hlow))) hssc

end Sys2Proof.Machine
end

section
/-! The hit update (chapter 3): what a 2.4 GHz burst does to the tracker that takes it. -/

namespace Sys2Proof.Machine

set_option Elab.async false

section TakeHit

variable {s : State} {f : Offer} {k : TrackerId} {o : Oven}

/-- R54 to R57: the oven after a hit. -/
def hitOven (set : TrackSettings) (tr : Tracker) (f : Offer) (o : Oven) : Oven :=
  { hitFields set tr f o with phase := (hitPhase set.lockThreshold (satInc 15 o.hits) o.phase).1 }

/-- R57: the event of a hit. -/
def raiseHit (e : Option EventKind) (k : TrackerId) (s : State) : State :=
  match e with
  | some e => raise e (trackerCode k) s
  | none => s

theorem takeHit_eq (ho : (s.tracker k).oven = some o) : takeHit f k s
    = raiseHit (hitPhase s.otk.settings.lockThreshold (satInc 15 o.hits) o.phase).2 k
        (s.setTracker k { s.tracker k with oven := some (hitOven s.otk.settings (s.tracker k) f o) }) := by
  unfold takeHit
  rw [ho]
  rfl

theorem raiseHit_tracker (e : Option EventKind) (k j : TrackerId) (s : State) :
    (raiseHit e k s).tracker j = s.tracker j := by
  cases e <;> rfl

theorem raiseHit_settings (e : Option EventKind) (k : TrackerId) (s : State) :
    (raiseHit e k s).otk.settings = s.otk.settings := by
  cases e <;> rfl

theorem raiseHit_events (e : Option EventKind) (k : TrackerId) (s : State) (x : Tracker) :
    (raiseHit e k (s.setTracker k x)).events = (raiseHit e k s).events := by
  cases e <;> rfl

theorem takeHit_tracker (ho : (s.tracker k).oven = some o) : (takeHit f k s).tracker k
    = { s.tracker k with oven := some (hitOven s.otk.settings (s.tracker k) f o) } := by
  rw [takeHit_eq ho, raiseHit_tracker, State.setTracker_tracker]

theorem takeHit_tracker_ne (ho : (s.tracker k).oven = some o) {j : TrackerId} (hj : j ≠ k) :
    (takeHit f k s).tracker j = s.tracker j := by
  rw [takeHit_eq ho, raiseHit_tracker, State.setTracker_tracker_ne _ _ hj]

theorem takeHit_settings (ho : (s.tracker k).oven = some o) : (takeHit f k s).otk.settings = s.otk.settings := by
  rw [takeHit_eq ho, raiseHit_settings]
  rfl

theorem takeHit_events (ho : (s.tracker k).oven = some o) : (takeHit f k s).events
    = (raiseHit (hitPhase s.otk.settings.lockThreshold (satInc 15 o.hits) o.phase).2 k s).events := by
  rw [takeHit_eq ho, raiseHit_events]

end TakeHit

/-! ## The fields of a hit -/

section Fields

variable (set : TrackSettings) (tr : Tracker) (f : Offer) (o : Oven)

theorem periodBand_eq (m : Mains) : periodBand m = if m = .hz50 then (19600, 20400) else (16334, 17000) := by
  cases m <;> rfl

/-- R54: the period step. -/
theorem hitPeriod_eq (o : Oven) (start : AT) : hitPeriod o start =
    (let delta := tdiff start o.lastHit
     let n := (delta.toNat + o.period / 2) / o.period
     let band := if o.candidate = .hz50 then (19600, 20400) else (16334, 17000)
     if 0 < delta ∧ 1 ≤ n ∧ n ≤ 50 then
       min band.2 (max band.1 ((o.period : Int) + Int.tdiv (((delta.toNat / n : Nat) : Int) - o.period) 8).toNat)
     else o.period) := by
  simp only [hitPeriod, periodBand_eq, clampNat, truncDiv]
  by_cases hdelta : 0 < tdiff start o.lastHit
  · simp only [hdelta, if_true, true_and]
  · simp only [hdelta, if_false, false_and]

/-- R55: the anchor step. -/
theorem hitAnchor_eq (o : Oven) (start : AT) (e : Int) : hitAnchor o start e = match o.phase with
    | .search _ => start
    | _ => start + BitVec.ofInt 32 (-e) + BitVec.ofInt 32 (Int.tdiv e 4) := by
  unfold hitAnchor
  cases o.phase <;> rfl

theorem hitFields_lo : (hitFields set tr f o).lo.val = min f.chan.val o.lo.val := by
  simp only [hitFields]
  split <;> omega

theorem hitFields_hi : (hitFields set tr f o).hi.val = max f.chan.val o.hi.val := by
  simp only [hitFields]
  split <;> omega

/-- R51: the set of window starts after a hit. -/
theorem addStart_eq (tolerance : Nat) (w : AT) (starts : List AT) : addStart tolerance w starts
    = if (starts.any fun x => decide ((tdiff x w).natAbs ≤ tolerance)) = true ∨ 8 ≤ starts.length then starts
      else starts ++ [w] := by
  simp only [addStart, Bool.or_eq_true, decide_eq_true_eq]

end Fields

/-! ## The state step -/

section Phase

variable {set : TrackSettings} {tr : Tracker} {f : Offer} {o : Oven} {k : TrackerId} {s : State} {b : AT}

theorem hitPhase_of_unlocked {threshold hits : Nat} (h : hits < threshold) :
    hitPhase threshold hits (.search b) = (.search b, none) :=
  if_neg (Nat.not_le.mpr h)

theorem hitPhase_of_locking {threshold hits : Nat} (h : threshold ≤ hits) :
    hitPhase threshold hits (.search b) = (.locked, some .ovenLocked) :=
  if_pos h

end Phase

/-- Settles O41: the taker, its fields, its state step and its event. -/
theorem hitUpdatesTracker : Obligations.HitUpdatesTracker := by
  unfold Obligations.HitUpdatesTracker
  intro now id off dur raw x y s d ready k o hs hline hd hk hoff hchan hstrong hlo hhi ho start e hown htol hleast us delta n
    band seen w add
  let f : Offer := ⟨id, d.chan, start, dur.toNat, x, y⟩
  have hotk : seen.otk = s.otk := State.sawBurst_otk (s.withNow now) d raw
  have htracker (j : TrackerId) : seen.tracker j = s.tracker j := State.sawBurst_tracker (s.withNow now) d raw j
  have ho' : (seen.tracker k).oven = some o := htracker k ▸ ho
  have htaker : takerOf seen start = some k := by
    refine takerOf_of_nearest (takerAt_of_matching ho' (by rw [hotk]; exact htol)) fun j p hj hp => ?_
    obtain ⟨q, hq, -, rfl⟩ := takerAt_some hp
    exact hleast j q hj (htracker j ▸ hq)
  have hoffer : bandTests f us seen = (takeHit f k seen).onTally id (tallied .oven us) := by
    rw [bandTests_of_offered (f := f) (bandOf_of_le_12 hchan) hlo hhi, offerBurst]
    show (match takerOf seen start with | some t => _ | none => _) = _
    rw [htaker]
    rfl
  have hhit : touchesOnly [.otk, .events] seen (takeHit f k seen) := takeHit_touches f k seen
  have hssc : (takeHit f k seen).ssc = s.ssc :=
    (hhit .ssc (by decide)).symm.trans (State.sawBurst_ssc (s.withNow now) d raw)
  have hexec : exec (.burst now id off dur raw x y) s = _ :=
    exec_burst_of_ghz24 x y hs hline hd hk hoff hchan hown hstrong hoffer hssc
  have hq : hitOven seen.otk.settings (seen.tracker k) f o = hitOven s.otk.settings (s.tracker k) f o := by
    rw [hotk, htracker]
  have hevents : (takeHit f k seen).events
      = (raiseHit (hitPhase s.otk.settings.lockThreshold (satInc 15 o.hits) o.phase).2 k seen).events := by
    rw [takeHit_events ho', hotk]
  have htr : (takeHit f k seen).tracker k
      = { s.tracker k with oven := some (hitOven s.otk.settings (s.tracker k) f o) } := by
    rw [takeHit_tracker ho', hq, htracker]
  have hall : touchesOnly [.now, .bcl, .otk, .omap, .events] s ((takeHit f k seen).onTally id (tallied .oven us)) :=
    (((withNow_touches s now).step (State.sawBurst_touches _ d raw)).trans hhit.mono).trans (onTally_touches _ _ _).mono
  refine ⟨_, hitOven s.otk.settings (s.tracker k) f o, hexec, congrArg Tracker.oven htr, (congrArg Tracker.mode htr).trans rfl,
    (congrArg Tracker.fixedGuard htr).trans rfl, fun j hj => (takeHit_tracker_ne ho' hj).trans (htracker j), hitPeriod_eq o start,
    hitAnchor_eq o start e, rfl, rfl, rfl, guardFor_eq _ _ _, hitFields_lo s.otk.settings (s.tracker k) f o,
    hitFields_hi s.otk.settings (s.tracker k) f o, rfl, rfl, rfl,
    rfl, ?_, fun b hb hlt => ?_, fun b hb hle => ?_, fun hl => ?_, fun b hb => ?_,
    State.onTally_bcl_congr (hhit .bcl (by decide)).symm, (takeHit_settings ho').trans (congrArg Otk.settings hotk),
    (hhit .omap (by decide)).symm, hall⟩
  · simp only [hitOven, hitFields, recordHit, addStart_eq]
    rfl
  · have hstep := hitPhase_of_unlocked (b := b) (show satInc 15 o.hits < s.otk.settings.lockThreshold from hlt)
    rw [← hb] at hstep
    exact ⟨(congrArg Prod.fst hstep).trans hb, hevents.trans (by rw [hstep]; rfl)⟩
  · have hstep := hitPhase_of_locking (b := b) (show s.otk.settings.lockThreshold ≤ satInc 15 o.hits from hle)
    rw [← hb] at hstep
    exact ⟨congrArg Prod.fst hstep, hevents.trans (by rw [hstep]; rfl)⟩
  · exact ⟨by simp only [hitOven, hl, hitPhase], hevents.trans (by rw [hl]; rfl)⟩
  · exact ⟨by simp only [hitOven, hb, hitPhase], hevents.trans (by rw [hb]; rfl)⟩

end Sys2Proof.Machine
end

section
/-! Calibration (chapter 2): CALIBRATE in its three modes, WRITE CORRECTION, and the outcomes of a run. -/

namespace Sys2Proof.Machine

set_option Elab.async false

/-! ## The mask and the queue -/

theorem maskOk_iff (mask : BitVec 40) : maskOk mask = true ↔ mask ≠ 0 ∧ mask.toNat < 2 ^ 38 := by
  simp [maskOk]

theorem calModeOf_eq_none {b : Byte} (h : 2 < b.toNat) : calModeOf b = none := by
  unfold calModeOf
  split <;> first | omega | rfl

/-- R39: a mask that is in order names a channel. -/
theorem maskedChans_ne_nil {mask : BitVec 40} (h0 : mask ≠ 0) (hlt : mask.toNat < 2 ^ 38) : maskedChans mask ≠ [] := by
  intro hnil
  refine h0 (BitVec.eq_of_getLsbD_eq fun i hi => ?_)
  rw [show (0 : BitVec 40).getLsbD i = false from BitVec.getLsbD_zero]
  by_cases h38 : i < 38
  · have hnot := List.filter_eq_nil_iff.mp hnil (⟨i, h38⟩ : Chan) (by simp [allChans])
    exact Bool.eq_false_iff.mpr hnot
  · exact Nat.testBit_lt_two_pow (Nat.lt_of_lt_of_le hlt (Nat.pow_le_pow_right (by decide) (Nat.not_lt.mp h38)))

theorem bandOf_eq_24_iff (c : Chan) : bandOf c = .ghz24 ↔ c.val ≤ 12 := by
  unfold bandOf
  split <;> simp_all

theorem bandOf_eq_5_iff (c : Chan) : bandOf c = .ghz5 ↔ 12 < c.val := by
  unfold bandOf
  split <;> simp_all

/-- R39: the lowest masked channel of each band. -/
theorem runQueue_quick (mask : BitVec 40) : runQueue .quick mask
    = ((maskedChans mask).find? fun x => x.val ≤ 12).toList ++ ((maskedChans mask).find? fun x => 12 < x.val).toList := by
  simp only [runQueue, bandOf_eq_24_iff, bandOf_eq_5_iff]

theorem runQueue_ne_nil {mode : CalMode} {mask : BitVec 40} (h0 : mask ≠ 0) (hlt : mask.toNat < 2 ^ 38)
    (hmode : mode ≠ .revert) : runQueue mode mask ≠ [] := by
  have hne := maskedChans_ne_nil h0 hlt
  cases mode with
  | measure => exact hne
  | revert => exact absurd rfl hmode
  | quick =>
    rw [runQueue_quick]
    obtain ⟨c, hc⟩ := List.exists_mem_of_ne_nil _ hne
    intro hnil
    obtain ⟨h24, h5⟩ := List.append_eq_nil_iff.mp hnil
    rw [Option.toList_eq_nil_iff, List.find?_eq_none] at h24 h5
    have := h24 c hc
    have := h5 c hc
    simp only [decide_eq_true_eq] at *
    omega

/-! ## A run starts -/

section Start

variable {s : State} {mode : CalMode} {mask : BitVec 40}

/-- R39: the run's record at its start. -/
def startedRun (mode : CalMode) (mask : BitVec 40) : CalRun :=
  ⟨.running, some mode, mask, (runQueue mode mask).length, false⟩

theorem startRun_of_not_fault (hl : ∀ r, s.ssc.line ≠ .fault r) : startRun mode mask s
    = wakeIfParked ((s.withBcl { s.bcl with cal := startedRun mode mask }).withSsc
        { s.ssc with calQueue := runQueue mode mask }) := by
  refine if_neg fun h => ?_
  obtain ⟨r, hr⟩ := (inFault_iff _).mp h
  exact hl r hr

/-- R43: in FAULT the run ends at once. -/
theorem startRun_of_fault {r : AT} (hl : s.ssc.line = .fault r) : startRun mode mask s
    = raise .calibration 2 ((s.withSsc { s.ssc with calQueue := [] }).withBcl
        { s.bcl with cal := ⟨.bad, some mode, mask, 0, false⟩ }) := by
  refine (if_pos ((inFault_iff _).mpr ⟨r, hl⟩)).trans ?_
  exact faultCalibration_of_running (s := s.withBcl { s.bcl with cal := startedRun mode mask }) rfl

end Start

section Calibrate

variable {s : State} {p : List Byte} {now : AT}

theorem calibrateWith_of_running (h : s.bcl.cal.status = .running) : calibrateWith p s = refuse .busy s := if_pos h

theorem calibrateWith_of_noMode (h : s.bcl.cal.status ≠ .running) (hm : calModeOf (arg p 5) = none) :
    calibrateWith p s = refuse .badArgument s := by
  refine (if_neg h).trans ?_
  rw [hm]

theorem calibrateWith_of_badMask {mode : CalMode} (h : s.bcl.cal.status ≠ .running)
    (hm : calModeOf (arg p 5) = some mode) (hmask : ¬ maskOk (arg5 p 0) = true) :
    calibrateWith p s = refuse .badArgument s := by
  refine (if_neg h).trans ?_
  rw [hm]
  exact if_neg hmask

/-- R39: an accepted MEASURE or QUICK. -/
theorem calibrateWith_of_start {mode : CalMode} (h : s.bcl.cal.status ≠ .running)
    (hm : calModeOf (arg p 5) = some mode) (hmode : mode ≠ .revert) (hmask : maskOk (arg5 p 0) = true) :
    calibrateWith p s = okay [] (startRun mode (arg5 p 0) s) := by
  refine (if_neg h).trans ?_
  rw [hm]
  refine (if_pos hmask).trans ?_
  cases mode with
  | measure => rfl
  | quick => rfl
  | revert => exact absurd rfl hmode

theorem calibrateWith_of_revert (h : s.bcl.cal.status ≠ .running) (hm : calModeOf (arg p 5) = some .revert)
    (hmask : maskOk (arg5 p 0) = true) : calibrateWith p s = okay [] (revertRun (arg5 p 0) s) := by
  refine (if_neg h).trans ?_
  rw [hm]
  exact if_pos hmask

theorem exec_calibrate : exec (.calibrate now) s = handle 0x20 6 now s calibrateWith := rfl

/-- R40, log entry 7: the row of a REVERT frame is handled as CALIBRATE is. -/
theorem exec_calibrateRevert (h : s.inHandIs 0x20 p) (hm : calModeOf (arg p 5) = some .revert) :
    exec (.calibrateRevert now) s = handle 0x20 6 now s calibrateWith := by
  obtain ⟨-, hc⟩ := h
  obtain ⟨c, hh, hcp⟩ := Option.map_eq_some_iff.mp hc
  have hpay : c.payload = p := congrArg Prod.snd hcp
  rw [exec, execCalibrateRevert]
  refine if_pos ?_
  simp [hh, hpay, hm]

end Calibrate

/-! ## REVERT -/

section Revert

variable (mask : BitVec 40) (s : State)

theorem revertRun_chan (c : Chan) : (revertRun mask s).chan c
    = if mask.getLsbD c.val then { s.chan c with correction := 0 } else s.chan c :=
  chanTable_get _ c

end Revert

/-! ## WRITE CORRECTION -/

section WriteCorrection

variable {s : State} {p : List Byte} {now : AT} {a b : Byte}

theorem exec_writeCorrection_refused (h : s.inHandIs 0x21 (a :: b :: p)) (ha : 38 ≤ a.toNat) :
    exec (.writeCorrection now) s = .next (s.answered now 0x21 .badArgument []) := by
  rw [exec, execWriteCorrection]
  exact handle_of_refuse h rfl (by simp) (by rw [arg_cons_zero, chanOf_eq_none ha])

theorem exec_writeCorrection_busy {c : Chan} (h : s.inHandIs 0x21 (a :: b :: p)) (hc : c.val = a.toNat)
    (hrun : s.bcl.cal.status = .running) : exec (.writeCorrection now) s = .next (s.answered now 0x21 .busy []) := by
  rw [exec, execWriteCorrection]
  refine handle_of_refuse h rfl (by simp) ?_
  rw [arg_cons_zero, chanOf_of_val_eq hc]
  exact if_pos hrun

theorem exec_writeCorrection {c : Chan} (h : s.inHandIs 0x21 (a :: b :: p)) (hc : c.val = a.toNat)
    (hrun : s.bcl.cal.status ≠ .running) : exec (.writeCorrection now) s = .next
      ((s.answered now 0x21 .ok [BitVec.ofInt 8 (min 15 (max (-16) b.toInt))]).setChan c
        { s.chan c with correction := min 15 (max (-16) b.toInt) }) := by
  rw [exec, execWriteCorrection]
  refine (handle_of_okay (u := (s.withNow now).setChan c { s.chan c with correction := min 15 (max (-16) b.toInt) })
    (out := [BitVec.ofInt 8 (min 15 (max (-16) b.toInt))]) h rfl (by simp) ?_).trans rfl
  rw [arg_cons_zero, chanOf_of_val_eq hc]
  exact if_neg hrun

end WriteCorrection

/-- Settles O43: CALIBRATE's refusals, its queue and its run, REVERT; WRITE CORRECTION. -/
theorem calibrationCommands : Obligations.CalibrationCommands := by
  unfold Obligations.CalibrationCommands
  intro now a b c d e m rest s mask named
  have harg5 : arg5 (a :: b :: c :: d :: e :: m :: rest) 0 = mask := rfl
  have hargm : arg (a :: b :: c :: d :: e :: m :: rest) 5 = m := rfl
  refine ⟨fun h => ⟨fun hrun => ?_, fun hidle hbad => ?_, fun hidle h0 hlt mode queue hmode => ?_,
    fun hidle h0 hlt hm => ?_⟩, fun h => ⟨exec_writeCorrection_refused h, fun x hx =>
      ⟨exec_writeCorrection_busy h hx, exec_writeCorrection h hx⟩⟩⟩
  · rw [exec_calibrate]
    exact handle_of_refuse h rfl (by simp) (calibrateWith_of_running hrun)
  · rw [exec_calibrate]
    refine handle_of_refuse h rfl (by simp) ?_
    cases hm : calModeOf m with
    | none => exact calibrateWith_of_noMode hidle (hargm ▸ hm)
    | some mode =>
      have hmask : ¬ maskOk mask = true := fun hok => by
        obtain ⟨h0, hlt⟩ := (maskOk_iff _).mp hok
        rcases hbad with h2 | hz | hge
        · rw [calModeOf_eq_none h2] at hm
          exact absurd hm (by simp)
        · exact h0 hz
        · omega
      exact calibrateWith_of_badMask hidle (hargm ▸ hm) hmask
  · have hmask : maskOk mask = true := (maskOk_iff _).mpr ⟨h0, hlt⟩
    have ⟨hm, hrev, hqueue⟩ : calModeOf m = some mode ∧ mode ≠ .revert ∧ queue = runQueue mode mask := by
      rcases hmode with ⟨rfl, rfl, rfl⟩ | ⟨rfl, rfl, rfl⟩
      · exact ⟨rfl, CalMode.noConfusion, rfl⟩
      · exact ⟨rfl, CalMode.noConfusion, (runQueue_quick mask).symm⟩
    have hbody : calibrateWith (a :: b :: c :: d :: e :: m :: rest) (s.withNow now)
        = okay [] (startRun mode mask (s.withNow now)) :=
      calibrateWith_of_start hidle (hargm ▸ hm) hrev hmask
    have hne : queue ≠ [] := hqueue ▸ runQueue_ne_nil h0 hlt hrev
    have hwake (hl : ∀ r, s.ssc.line ≠ .fault r) := handle_of_okay_wake (k := 0x20) (n := 6) h rfl (by simp)
      (hbody.trans (congrArg (okay []) (startRun_of_not_fault (s := s.withNow now) hl)))
    subst hqueue
    rw [exec_calibrate]
    refine ⟨fun hl => ?_, fun hl => ?_, fun retry hl => ?_⟩
    · rw [hwake fun r => by rw [hl]; exact LineState.noConfusion,
        wakeIfParked_of_not_parked (by exact fun hp => LineState.noConfusion (hl.symm.trans hp))]
      rfl
    · rw [hwake fun r => by rw [hl]; exact LineState.noConfusion, wakeIfParked_of_parked (by exact hl) (.inr (.inl hne))]
      rfl
    · exact (handle_of_okay (k := 0x20) (n := 6) h rfl (by simp)
        (hbody.trans (congrArg (okay []) (startRun_of_fault (s := s.withNow now) hl)))).trans rfl
  · have hmask : maskOk mask = true := (maskOk_iff _).mpr ⟨h0, hlt⟩
    have hmode : calModeOf (arg (a :: b :: c :: d :: e :: m :: rest) 5) = some .revert := by rw [hargm, hm]; rfl
    have hbody := calibrateWith_of_revert (s := s.withNow now) hidle hmode hmask
    rw [exec_calibrateRevert h hmode, exec_calibrate]
    refine ⟨rfl, _, handle_of_okay h rfl (by simp) hbody, fun x => revertRun_chan mask (s.withNow now) x, rfl, rfl, rfl, rfl,
      ?_⟩
    intro p hp
    cases p <;> first | rfl | exact absurd (by decide) hp

/-! ## The outcome of a reference dwell -/

/-- R41: the run's channels for the dwell `d`. -/
def OnRun (s : State) (d : Dwell) (c : Chan) : Prop :=
  match s.bcl.cal.mode with
  | some .measure => c = d.chan
  | some .quick => s.bcl.cal.mask.getLsbD c.val = true ∧ bandOf c = bandOf d.chan
  | _ => False

theorem outcomeApplies_iff (s : State) (d : Dwell) (c : Chan) :
    outcomeApplies s.bcl.cal d.chan c = true ↔ OnRun s d c := by
  unfold outcomeApplies OnRun
  cases s.bcl.cal.mode with
  | none => simp
  | some mode => cases mode <;> simp [inMask]

section Outcome

variable {d : Dwell} {m : Option Byte} {s : State}

theorem calOutcome_of_idle (h : s.bcl.cal.status ≠ .running) : calOutcome d m s = s := if_neg h

/-- R42: the run is bad once an outcome has been. -/
def outcomeBad (m : Option Byte) (s : State) : Bool := s.bcl.cal.runBad || (measuredCorrection m).isNone

/-- R41, R42: an outcome of a RUNNING run, before its end. -/
def State.tookOutcome (s : State) (d : Dwell) (m : Option Byte) : State :=
  let u := s.withOmap { s.omap with
    channels := chanTable fun x =>
      if outcomeApplies s.bcl.cal d.chan x then outcomeOn (measuredCorrection m) (s.chan x) else s.chan x }
  u.withBcl { s.bcl with cal := { s.bcl.cal with remaining := s.bcl.cal.remaining - 1, runBad := outcomeBad m s } }

variable (hrun : s.bcl.cal.status = .running)
include hrun

theorem calOutcome_of_running : calOutcome d m s
    = if d.last = true then endRun (if outcomeBad m s = true then .bad else .done) (s.tookOutcome d m)
      else s.tookOutcome d m :=
  if_pos hrun

theorem calOutcome_chan (c : Chan) : (calOutcome d m s).chan c
    = if outcomeApplies s.bcl.cal d.chan c then outcomeOn (measuredCorrection m) (s.chan c) else s.chan c := by
  rw [calOutcome_of_running hrun]
  split <;> exact chanTable_get _ c

theorem calOutcome_chan_on {c : Chan} (h : OnRun s d c) :
    (calOutcome d m s).chan c = outcomeOn (measuredCorrection m) (s.chan c) :=
  (calOutcome_chan hrun c).trans (if_pos ((outcomeApplies_iff s d c).mpr h))

theorem calOutcome_chan_off {c : Chan} (h : ¬ OnRun s d c) : (calOutcome d m s).chan c = s.chan c :=
  (calOutcome_chan hrun c).trans (if_neg fun hon => h ((outcomeApplies_iff s d c).mp hon))

theorem calOutcome_bcl : (calOutcome d m s).bcl = { s.bcl with cal := { s.bcl.cal with
    remaining := s.bcl.cal.remaining - 1, runBad := outcomeBad m s
    status := if d.last = true then (if outcomeBad m s = true then .bad else .done) else .running } } := by
  rw [calOutcome_of_running hrun, ← hrun]
  split <;> rfl

theorem calOutcome_events : (calOutcome d m s).events
    = if d.last = true then (raise .calibration (if outcomeBad m s = true then 2 else 1) s).events else s.events := by
  rw [calOutcome_of_running hrun]
  split
  · cases outcomeBad m s <;> rfl
  · rfl

end Outcome

/-- R41: the raw levels that give a correction. -/
theorem measuredCorrection_of_inRange {r : Byte} (h : 105 ≤ r.toNat ∧ r.toNat ≤ 136) :
    measuredCorrection (some r) = some (120 - (r.toNat : Int)) :=
  if_pos (by omega)

theorem measuredCorrection_of_outOfRange {r : Byte} (h : ¬ (105 ≤ r.toNat ∧ r.toNat ≤ 136)) :
    measuredCorrection (some r) = none :=
  if_neg (by omega)

theorem outcomeBad_some (r : Byte) (s : State) : outcomeBad (some r) s
    = (s.bcl.cal.runBad || decide (¬ (105 ≤ r.toNat ∧ r.toNat ≤ 136))) := by
  unfold outcomeBad
  by_cases h : 105 ≤ r.toNat ∧ r.toNat ≤ 136
  · rw [measuredCorrection_of_inRange h, decide_eq_false (not_not_intro h)]
    rfl
  · rw [measuredCorrection_of_outOfRange h, decide_eq_true h]
    rfl

theorem outcomeBad_none (s : State) : outcomeBad none s = true := Bool.or_true _

theorem closeDwell_reference {d : Dwell} (hk : d.kind = .reference) (ready : AT) (rep : Option Report) (s : State) :
    closeDwell d ready rep none s = calOutcome d (rep.map (·.rawRef)) s := by
  rw [closeDwell, hk]
  rfl

/-- Settles O44: the outcome with a level, without one, while no run is RUNNING, and where it comes from. -/
theorem referenceCloseGivesOutcome : Obligations.ReferenceCloseGivesOutcome := by
  unfold Obligations.ReferenceCloseGivesOutcome
  refine ⟨fun now id f r ready d wait s hs he hid hk hrun => ?_, fun d s hrun => ?_,
    fun d m s h => calOutcome_of_idle h, fun now ready d wait s hrun he hk => ⟨fun w hw hge => ?_,
      fun d' at' hsync hc hl => ?_⟩⟩
  · let u : State := (s.withNow now).withSsc { s.ssc with ended := none }
    have hexec : exec (.close now id f r) s = .next (calOutcome d (some r) u) := by
      have hclose : exec (.close now id f r) s = .next (closeRecord id ⟨f, r⟩ (s.withNow now)) := senseEvent_taken hs
      rw [hclose, closeRecord_of_ended (by exact he) hid, closeEnded_of_some (by exact he)]
      exact congrArg _ (closeDwell_reference hk ready _ _)
    have hbad := outcomeBad_some r u
    refine ⟨_, hexec, fun c hon hin => ?_, fun c hon hout => ?_, fun c hoff => calOutcome_chan_off (s := u) hrun hoff,
      ?_, ?_, (calOutcome_touches d (some r) u .ssc (by decide)).symm, ?_⟩
    · rw [calOutcome_chan_on (s := u) hrun hon, measuredCorrection_of_inRange hin]
      rfl
    · rw [calOutcome_chan_on (s := u) hrun hon, measuredCorrection_of_outOfRange hout]
      rfl
    · rw [calOutcome_bcl (s := u) hrun, hbad]
      rfl
    · rw [calOutcome_events (s := u) hrun, hbad]
      rfl
    · exact ((withNow_touches s now).step (withSsc_touches _ _) (rs := [.now, .ssc, .omap, .bcl, .events])).trans
        (calOutcome_touches d (some r) u).mono
  · refine ⟨fun c hon => calOutcome_chan_on hrun hon, fun c hoff => calOutcome_chan_off hrun hoff, ?_, ?_,
      (calOutcome_touches d none s).mono⟩
    · rw [calOutcome_bcl hrun, outcomeBad_none]
      rfl
    · rw [calOutcome_events hrun, outcomeBad_none]
      rfl
  · rw [exec_closeWaitExpiry hrun he hw, if_pos (reached_of_le hge), closeEnded_of_some (by exact he)]
    exact congrArg _ (closeDwell_reference hk ready none _)
  · have hopen : exec (.ready now d'.id) s = .next (openDwell d' (s.withNow now)) := by
      rw [exec_ready now _ ⟨hrun, hsync⟩, readyRecord_of_ordered (s := s.withNow now) hc]
    rw [hopen, openDwell_of_not_fault (by exact hl), closeEnded_of_some (by exact he)]
    refine ⟨_, congrArg _ (closeDwell_reference hk ready none _), ?_, ?_⟩
    · show (openedBcl d' now s.bcl).cal = s.bcl.cal
      unfold openedBcl
      split <;> rfl
    · intro p hp
      cases p <;> first | rfl | exact absurd (by decide) hp

end Sys2Proof.Machine
end

section
/-! The trackers' commands and timers (chapter 3): SET TRACKING and the holdovers it ends, SET TRACKER, RESTART TRACKER, the search
timeout and the holdover expiry. -/

namespace Sys2Proof.Machine

set_option Elab.async false

/-! ## Entering IDLE -/

/-- R11, R15: a watch dwell of a tracker in `gone` is no longer for it. -/
def forgetWatches (gone : TrackerId → Bool) (c : Current) : Current :=
  if c.dwell.watchFor.any gone = true then { c with dwell := { c.dwell with watchFor := none } } else c

theorem forgetWatch_eq (k : TrackerId) : forgetWatch k = forgetWatches fun j => decide (j = k) := by
  funext c
  unfold forgetWatch forgetWatches
  cases c.dwell.watchFor <;> simp

theorem forgetWatches_none (c : Current) : forgetWatches (fun _ => false) c = c := by
  unfold forgetWatches
  cases c.dwell.watchFor <;> rfl

theorem forgetWatches_forgetWatches (g h : TrackerId → Bool) (c : Current) :
    forgetWatches h (forgetWatches g c) = forgetWatches (fun j => g j || h j) c := by
  obtain ⟨⟨kind, id, chan, len, watch, last⟩, cond⟩ := c
  cases watch with
  | none => rfl
  | some j => cases hg : g j <;> cases hh : h j <;> simp [forgetWatches, hg, hh]

section ToIdle

variable (k : TrackerId) (s : State)

theorem toIdle_tracker : (toIdle k s).tracker k = { s.tracker k with oven := none } :=
  State.setTracker_tracker s k { s.tracker k with oven := none }

theorem toIdle_tracker_ne {j : TrackerId} (h : j ≠ k) : (toIdle k s).tracker j = s.tracker j :=
  State.setTracker_tracker_ne s { s.tracker k with oven := none } h

theorem toIdle_ssc : (toIdle k s).ssc = { s.ssc with
    lastWatch := s.ssc.lastWatch.set k none, current := s.ssc.current.map (forgetWatches fun j => decide (j = k)) } := by
  rw [← forgetWatch_eq]
  rfl

end ToIdle

/-! ## The holdovers that SET TRACKING ends -/

/-- R48: the tracker's holdover has already expired by these settings. -/
def expiredBy (set : TrackSettings) (now : AT) (x : Tracker) : Bool :=
  x.oven.any fun o => match o.phase with
    | .holdover start => decide (0 < tdiff now (start + BitVec.ofNat 32 (set.holdoverMs * 1000)))
    | .search _ => false
    | .locked => false

theorem expirePassed_eq (s : State) (k : TrackerId) : expirePassed s k
    = if expiredBy s.otk.settings s.now (s.tracker k) = true then holdoverExpired k s else s := by
  unfold expirePassed expiredBy
  cases ho : (s.tracker k).oven with
  | none => rfl
  | some o => cases hp : o.phase <;> simp only [hp, Option.any_some] <;> rfl

/-- R20, R62: what the trackers in `gone` leave of `s` as they expire, OVEN_GONE raised in the order of `l`. -/
structure Expired (gone : TrackerId → Bool) (l : List TrackerId) (s t : State) : Prop where
  tracker : ∀ k, t.tracker k = if gone k = true then { s.tracker k with oven := none } else s.tracker k
  settings : t.otk.settings = s.otk.settings
  lastWatch : ∀ k, t.ssc.lastWatch.get k = if gone k = true then none else s.ssc.lastWatch.get k
  ssc : t.ssc = { s.ssc with lastWatch := t.ssc.lastWatch, current := s.ssc.current.map (forgetWatches gone) }
  events : t.events = ((l.filter gone).foldl (fun v k => raise .ovenGone (trackerCode k) v) s).events

theorem Expired.refl (s : State) : Expired (fun _ => false) [] s s where
  tracker _ := rfl
  settings := rfl
  lastWatch _ := rfl
  ssc := by
    have hmap : s.ssc.current.map (forgetWatches fun _ => false) = s.ssc.current := by
      rw [funext forgetWatches_none, Option.map_id']
    rw [hmap]
  events := rfl

section Expiry

variable {s t : State} {k : TrackerId} {l : List TrackerId}

/-- One tracker expires, then those of `l`. -/
theorem Expired.cons (h : Expired (fun j => decide (j ∈ l) && expiredBy s.otk.settings s.now (s.tracker j)) l
      (holdoverExpired k s) t) (hk : k ∉ l) (hexp : expiredBy s.otk.settings s.now (s.tracker k) = true) :
    Expired (fun j => decide (j ∈ k :: l) && expiredBy s.otk.settings s.now (s.tracker j)) (k :: l) s t := by
  have hmem (j : TrackerId) : (decide (j ∈ k :: l) && expiredBy s.otk.settings s.now (s.tracker j))
      = (decide (j = k) || (decide (j ∈ l) && expiredBy s.otk.settings s.now (s.tracker j))) := by
    by_cases hj : j = k
    · subst hj
      simp [hexp]
    · simp [hj]
  refine ⟨fun j => ?_, h.settings, fun j => ?_, ?_, ?_⟩
  · rw [h.tracker j]
    by_cases hj : j = k
    · subst hj
      have hidle : (holdoverExpired j s).tracker j = { s.tracker j with oven := none } := toIdle_tracker j s
      simp [hk, hexp, hidle]
    · have hkeep : (holdoverExpired k s).tracker j = s.tracker j := toIdle_tracker_ne k s hj
      simp [hj, hkeep]
  · rw [h.lastWatch j]
    by_cases hj : j = k
    · subst hj
      simp [hk, hexp, holdoverExpired, toIdle, raise]
    · have hkeep : (holdoverExpired k s).ssc.lastWatch.get j = s.ssc.lastWatch.get j := by
        simp [holdoverExpired, toIdle, raise, Triple.get_set_ne, hj]
      simp [hj, hkeep]
  · have hssc : (holdoverExpired k s).ssc = _ := toIdle_ssc k s
    rw [h.ssc, hssc, funext hmem]
    simp only [Option.map_map, Function.comp_def, forgetWatches_forgetWatches]
  · rw [h.events, List.filter_cons, if_pos (by simp [hexp]), List.foldl_cons]
    have hfilter : l.filter (fun j => decide (j ∈ k :: l) && expiredBy s.otk.settings s.now (s.tracker j))
        = l.filter fun j => decide (j ∈ l) && expiredBy s.otk.settings s.now (s.tracker j) :=
      List.filter_congr fun j hj => by simp [hj]
    rw [hfilter]
    exact foldl_raise_events _ rfl rfl

/-- A tracker that has not expired is passed over. -/
theorem Expired.cons_kept (h : Expired (fun j => decide (j ∈ l) && expiredBy s.otk.settings s.now (s.tracker j)) l s t)
    (hexp : expiredBy s.otk.settings s.now (s.tracker k) = false) :
    Expired (fun j => decide (j ∈ k :: l) && expiredBy s.otk.settings s.now (s.tracker j)) (k :: l) s t := by
  have hmem : (fun j => decide (j ∈ k :: l) && expiredBy s.otk.settings s.now (s.tracker j))
      = fun j => decide (j ∈ l) && expiredBy s.otk.settings s.now (s.tracker j) := by
    funext j
    by_cases hj : j = k
    · subst hj
      simp [hexp]
    · simp [hj]
  rw [hmem]
  refine { h with events := ?_ }
  rw [h.events, List.filter_cons, if_neg (by simp [hexp])]

theorem foldl_expirePassed (l : List TrackerId) (hl : l.Nodup) (s : State) :
    Expired (fun j => decide (j ∈ l) && expiredBy s.otk.settings s.now (s.tracker j)) l s (l.foldl expirePassed s) := by
  induction l generalizing s with
  | nil => simpa using Expired.refl s
  | cons k l ih =>
    obtain ⟨hk, hl⟩ := List.nodup_cons.mp hl
    rw [List.foldl_cons, expirePassed_eq]
    by_cases hexp : expiredBy s.otk.settings s.now (s.tracker k) = true
    · rw [if_pos hexp]
      have hsame : (fun j => decide (j ∈ l) && expiredBy (holdoverExpired k s).otk.settings (holdoverExpired k s).now
          ((holdoverExpired k s).tracker j))
          = fun j => decide (j ∈ l) && expiredBy s.otk.settings s.now (s.tracker j) := by
        funext j
        by_cases hj : j ∈ l
        · have hkeep : (holdoverExpired k s).tracker j = s.tracker j :=
            toIdle_tracker_ne k s (ne_of_mem_of_not_mem hj hk)
          rw [hkeep]
          rfl
        · simp [hj]
      exact Expired.cons (hsame ▸ ih hl (holdoverExpired k s)) hk hexp
    · rw [if_neg hexp]
      exact Expired.cons_kept (ih hl s) (by simpa using hexp)

theorem allTrackers_expirePassed (s : State) :
    Expired (fun j => expiredBy s.otk.settings s.now (s.tracker j)) [.t0, .t1, .t2] s (allTrackers.foldl expirePassed s) := by
  have h := foldl_expirePassed allTrackers (by decide) s
  simp only [mem_allTrackers, decide_true, Bool.true_and] at h
  exact h

theorem allTrackers_expirePassed_host (s : State) : (allTrackers.foldl expirePassed s).host = s.host :=
  (((expirePassed_touches .t0 s).trans (expirePassed_touches .t1 _)).trans (expirePassed_touches .t2 _) .host
    (by decide)).symm

/-- No holdover has passed its expiry. -/
theorem allTrackers_expirePassed_of_none (h : ∀ k, expiredBy s.otk.settings s.now (s.tracker k) = false) :
    allTrackers.foldl expirePassed s = s := by
  have hstep (k : TrackerId) : expirePassed s k = s := by
    rw [expirePassed_eq, h k]
    rfl
  simp only [allTrackers, List.foldl_cons, List.foldl_nil, hstep]

end Expiry

theorem expiredBy_of_not_passed {set : TrackSettings} {now : AT} {x : Tracker}
    (h : ∀ o b, x.oven = some o → o.phase = .holdover b → tdiff now (b + BitVec.ofNat 32 (set.holdoverMs * 1000)) ≤ 0) :
    expiredBy set now x = false := by
  unfold expiredBy
  cases ho : x.oven with
  | none => rfl
  | some o =>
    rw [Option.any_some]
    cases hp : o.phase with
    | search b => rfl
    | locked => rfl
    | holdover b => exact decide_eq_false (not_lt.mpr (h o b ho hp))

/-! ## SET TRACKING -/

section SetTracking

variable {s : State} {now : AT} {a b c d e f g h p : Byte} {rest : List Byte}

theorem policyOf_eq_none (hp : 2 ≤ p.toNat) : policyOf p = none := by
  unfold policyOf
  split <;> first | omega | rfl

theorem policyOf_of_code {policy : Policy} (hp : p = if policy = .avoid then 0 else 1) :
    policyOf p = some policy ∧ b1 policy.code = [p] := by
  subst hp
  cases policy <;> exact ⟨rfl, rfl⟩

theorem settingsBytes_of_code {policy : Policy} {x : TrackSettings} {hold : Nat} (hx : x.policy = policy)
    (hh : x.holdoverMs = hold) (hp : p = if policy = .avoid then 0 else 1) :
    settingsBytes x = b2 x.tolerance ++ [BitVec.ofNat 8 x.lockThreshold, BitVec.ofNat 8 x.missLimit] ++ b2 hold
      ++ b2 x.searchGuard ++ [p] := by
  rw [← (policyOf_of_code hp).2, ← hx, ← hh]
  simp [settingsBytes, b1]

theorem arg2_drop (q : List Byte) (x y : Byte) (i : Nat) (hx : arg q i = x) (hy : arg q (i + 1) = y) :
    arg2 q i = 256 * x.toNat + y.toNat := by
  rw [← arg2_cons_cons_zero x y [], arg2, arg2, hx, hy]
  rfl

/-- R48: the settings of a SET TRACKING frame. -/
theorem trackSettingsOf_eq (policy : Policy) :
    trackSettingsOf (a :: b :: c :: d :: e :: f :: g :: h :: p :: rest) policy
      = ⟨min 2000 (max 200 (256 * a.toNat + b.toNat)), min 15 (max 3 c.toNat), min 15 (max 2 d.toNat),
          min 60000 (256 * e.toNat + f.toNat), min 2000 (max 100 (256 * g.toNat + h.toNat)), policy⟩ := by
  have hab := arg2_drop (a :: b :: c :: d :: e :: f :: g :: h :: p :: rest) a b 0 rfl rfl
  have hef := arg2_drop (a :: b :: c :: d :: e :: f :: g :: h :: p :: rest) e f 4 rfl rfl
  have hgh := arg2_drop (a :: b :: c :: d :: e :: f :: g :: h :: p :: rest) g h 6 rfl rfl
  simp only [trackSettingsOf, hab, hef, hgh, clampNat, Nat.zero_max]
  rfl

variable (hs : s.inHandIs 0x30 (a :: b :: c :: d :: e :: f :: g :: h :: p :: rest))
include hs

theorem exec_setTracking_refused (hp : 2 ≤ p.toNat) :
    exec (.setTracking now) s = .next (s.answered now 0x30 .badArgument []) := by
  rw [exec, execSetTracking]
  refine handle_of_refuse hs rfl (by simp) ?_
  have harg : arg (a :: b :: c :: d :: e :: f :: g :: h :: p :: rest) 8 = p := rfl
  rw [harg, policyOf_eq_none hp]

/-- R48: the settings are stored and answered, and the holdovers that have passed expire. -/
theorem exec_setTracking {policy : Policy} (hp : p = if policy = .avoid then 0 else 1) {x : TrackSettings}
    (hx : x = trackSettingsOf (a :: b :: c :: d :: e :: f :: g :: h :: p :: rest) policy) {u : State}
    (hu : allTrackers.foldl expirePassed ((s.withNow now).withOtk { s.otk with settings := x }) = u) :
    exec (.setTracking now) s = .next (u.withHost { u.host with
      inHand := none, response := some ⟨.ok, 0x30, settingsBytes x⟩ }) := by
  rw [exec, execSetTracking]
  refine handle_of_okay hs rfl (by simp) ?_
  have harg : arg (a :: b :: c :: d :: e :: f :: g :: h :: p :: rest) 8 = p := rfl
  rw [harg, (policyOf_of_code hp).1, ← hu, hx]
  rfl

end SetTracking

/-! ## SET TRACKER and RESTART TRACKER -/

section SetTracker

variable {s : State} {now : AT} {a b c d : Byte} {rest : List Byte}

theorem guardModeOf_eq_none (hb : 2 ≤ b.toNat) : guardModeOf b = none := by
  unfold guardModeOf
  split <;> first | omega | rfl

theorem guardModeOf_of_code {mode : GuardMode} (hb : b = if mode = .auto then 0 else 1) : guardModeOf b = some mode := by
  subst hb
  cases mode <;> rfl

theorem exec_setTracker_refused (h : s.inHandIs 0x31 (a :: b :: c :: d :: rest)) (hbad : 3 ≤ a.toNat ∨ 2 ≤ b.toNat) :
    exec (.setTracker now) s = .next (s.answered now 0x31 .badArgument []) := by
  rw [exec, execSetTracker]
  refine handle_of_refuse h rfl (by simp) ?_
  rw [arg_cons_zero, arg_cons_succ, arg_cons_zero]
  rcases hbad with ha | hb
  · rw [trackerOf_eq_none ha]
  · rw [guardModeOf_eq_none hb]
    cases trackerOf a <;> rfl

theorem exec_setTracker {k : TrackerId} {mode : GuardMode} (h : s.inHandIs 0x31 (a :: b :: c :: d :: rest))
    (ha : trackerCode k = a.toNat) (hb : b = if mode = .auto then 0 else 1) {g : Nat}
    (hg : g = min 2000 (max 100 (256 * c.toNat + d.toNat))) :
    exec (.setTracker now) s = .next ((s.answered now 0x31 .ok (b2 g)).setTracker k
      ⟨(s.tracker k).oven.map fun o => { o with guardUs := g }, mode, g⟩) := by
  rw [exec, execSetTracker]
  have hcd : arg2 (a :: b :: c :: d :: rest) 2 = 256 * c.toNat + d.toNat := arg2_drop _ c d 2 rfl rfl
  refine (handle_of_okay (u := (s.withNow now).setTracker k (retuned (s.tracker k) mode g)) (out := b2 g) h rfl (by simp)
    ?_).trans rfl
  rw [arg_cons_zero, arg_cons_succ, arg_cons_zero, trackerOf_of_code ha.symm, guardModeOf_of_code hb, hcd, hg]
  rfl

theorem exec_restartTracker_refused (h : s.inHandIs 0x32 (a :: rest)) (ha : 3 ≤ a.toNat) :
    exec (.restartTracker now) s = .next (s.answered now 0x32 .badArgument []) := by
  rw [exec, execRestartTracker]
  exact handle_of_refuse h rfl (by simp) (by rw [arg_cons_zero, trackerOf_eq_none ha])

theorem exec_restartTracker {k : TrackerId} (h : s.inHandIs 0x32 (a :: rest)) (ha : trackerCode k = a.toNat) :
    exec (.restartTracker now) s = .next ((toIdle k (s.withNow now)).withHost { s.host with
      inHand := none, response := some ⟨.ok, 0x32, []⟩ }) := by
  rw [exec, execRestartTracker]
  exact handle_of_okay h rfl (by simp) (by rw [arg_cons_zero, trackerOf_of_code ha.symm])

end SetTracker

/-! ## The search timeout and the holdover expiry -/

section Timers

variable {s : State} {now b : AT} {k : TrackerId} {o : Oven}

theorem exec_searchTimeout (hrun : s.phase = .running) (ho : (s.tracker k).oven = some o) (hp : o.phase = .search b) :
    exec (.searchTimeout now k) s = .next (if reached (b + 400000) now = true
      then searchTimedOut k o (s.withNow now) else s.withNow now) := by
  have ho' : ((s.withNow now).tracker k).oven = some o := ho
  rw [exec, execSearchTimeout, event_running hrun]
  simp only [ho', hp]
  rfl

theorem exec_holdoverExpiry (hrun : s.phase = .running) (ho : (s.tracker k).oven = some o) (hp : o.phase = .holdover b) :
    exec (.holdoverExpiry now k) s
      = .next (if reached (b + BitVec.ofNat 32 (s.otk.settings.holdoverMs * 1000)) now = true
        then holdoverExpired k (s.withNow now) else s.withNow now) := by
  have ho' : ((s.withNow now).tracker k).oven = some o := ho
  rw [exec, execHoldoverExpiry, event_running hrun]
  simp only [ho', hp]
  rfl

theorem bothAllowed_iff (mh : BitVec 2) : bothAllowed mh = true ↔ mh = 0 ∨ mh = 3 := by
  revert mh
  decide

/-- R58: the other candidate is tried. -/
theorem searchTimedOut_of_alternating (hm : s.host.mains = 0 ∨ s.host.mains = 3) (ht : o.secondTried = false) :
    searchTimedOut k o s = s.setTracker k { s.tracker k with oven := some { o with
      phase := .search s.now, secondTried := true, hits := 1
      candidate := if o.candidate = .hz50 then .hz60 else .hz50
      period := if o.candidate = .hz50 then 16667 else 20000 } } := by
  refine (if_pos (by simp [(bothAllowed_iff _).mpr hm, ht])).trans ?_
  cases o.candidate <;> rfl

theorem searchTimedOut_of_last (h : ¬ (s.host.mains = 0 ∨ s.host.mains = 3) ∨ o.secondTried = true) :
    searchTimedOut k o s = raise .searchFailed (trackerCode k) (toIdle k s) := by
  refine if_neg fun hboth => ?_
  obtain ⟨hm, ht⟩ := (Bool.and_eq_true _ _ ▸ hboth : bothAllowed s.host.mains = true ∧ (!o.secondTried) = true)
  rcases h with h | h
  · exact h ((bothAllowed_iff _).mp hm)
  · rw [h] at ht
    exact absurd ht (by decide)

end Timers

/-- Settles O45: SET TRACKING without and with holdovers that have passed, the two commands of one tracker, the two timers. -/
theorem trackerCommandsAndTimers : Obligations.TrackerCommandsAndTimers := by
  unfold Obligations.TrackerCommandsAndTimers
  intro now s
  refine ⟨fun a b c d e f g h p rest hs => ⟨exec_setTracking_refused hs, fun policy hp => ?_⟩,
    fun a b c d e f g h p rest hs policy hp => ?_,
    fun a b c d rest hs => ⟨exec_setTracker_refused hs, fun k mode ha hb => exec_setTracker hs ha hb rfl⟩,
    fun a rest hs => ⟨exec_restartTracker_refused hs, fun k ha => ?_⟩,
    fun hrun k o b ho => ⟨fun hp => ⟨fun hlt => ?_, fun hge => ⟨fun hm ht => ?_, fun hlast => ?_⟩⟩,
      fun hp => ⟨fun hlt => ?_, fun hge => ?_⟩⟩⟩
  · intro tol lock miss hold search hnone
    have hx : (⟨tol, lock, miss, hold, search, policy⟩ : TrackSettings)
        = trackSettingsOf (a :: b :: c :: d :: e :: f :: g :: h :: p :: rest) policy := (trackSettingsOf_eq policy).symm
    have hkept := allTrackers_expirePassed_of_none
      (s := (s.withNow now).withOtk { s.otk with settings := ⟨tol, lock, miss, hold, search, policy⟩ })
      fun k => expiredBy_of_not_passed (hnone k)
    refine (exec_setTracking hs hp hx hkept).trans ?_
    have hbytes := settingsBytes_of_code (x := ⟨tol, lock, miss, hold, search, policy⟩) rfl rfl hp
    rw [hbytes]
    rfl
  · intro hold gone
    have hx := (trackSettingsOf_eq (a := a) (b := b) (c := c) (d := d) (e := e) (f := f) (g := g) (h := h) (p := p)
      (rest := rest) policy).symm
    generalize hset : (⟨min 2000 (max 200 (256 * a.toNat + b.toNat)), min 15 (max 3 c.toNat), min 15 (max 2 d.toNat),
      min 60000 (256 * e.toNat + f.toNat), min 2000 (max 100 (256 * g.toNat + h.toNat)), policy⟩ : TrackSettings) = x at hx ⊢
    have hall := allTrackers_expirePassed ((s.withNow now).withOtk { s.otk with settings := x })
    generalize hu : allTrackers.foldl expirePassed ((s.withNow now).withOtk { s.otk with settings := x }) = u at hall
    have hgone : (fun k => expiredBy x now (s.tracker k)) = gone := by
      rw [← hset]
      rfl
    have hall : Expired gone [.t0, .t1, .t2] ((s.withNow now).withOtk { s.otk with settings := x }) u := hgone ▸ hall
    have hsettings : u.otk.settings = x := hall.settings
    refine ⟨_, settingsBytes x, exec_setTracking hs hp hx hu, hsettings, ?_, ?_, hall.tracker, hall.lastWatch, hall.ssc,
      hall.events.trans (foldl_raise_events _ rfl rfl), ?_⟩
    · have hpol : u.otk.settings.policy = policy := by rw [hsettings, ← hset]
      have hhold : u.otk.settings.holdoverMs = hold := by rw [hsettings, ← hset]
      exact (congrArg settingsBytes hsettings).symm.trans (settingsBytes_of_code hpol hhold hp)
    · have hhost : u.host = s.host := hu ▸ allTrackers_expirePassed_host _
      exact congrArg (fun y : HostPort => { y with inHand := none, response := some ⟨.ok, 0x30, settingsBytes x⟩ }) hhost
    · exact exec_touches (exec_setTracking hs hp hx hu)
  · refine ⟨_, exec_restartTracker hs ha, toIdle_tracker k _, fun j hj => toIdle_tracker_ne k _ hj,
      toIdle_ssc k (s.withNow now), rfl, exec_touches (exec_restartTracker hs ha)⟩
  · rw [exec_searchTimeout hrun ho hp, if_neg (not_reached_of_lt hlt)]
  · rw [exec_searchTimeout hrun ho hp, if_pos (reached_of_le hge), searchTimedOut_of_alternating (by exact hm) ht]
    rfl
  · refine ⟨raise .searchFailed (trackerCode k) (toIdle k (s.withNow now)),
      by rw [exec_searchTimeout hrun ho hp, if_pos (reached_of_le hge), searchTimedOut_of_last (by exact hlast)],
      toIdle_tracker k _, fun j hj => toIdle_tracker_ne k _ hj, toIdle_ssc k (s.withNow now), raise_events_congr rfl rfl⟩
  · rw [exec_holdoverExpiry hrun ho hp, if_neg (not_reached_of_lt hlt)]
  · refine ⟨holdoverExpired k (s.withNow now), by rw [exec_holdoverExpiry hrun ho hp, if_pos (reached_of_le hge)],
      toIdle_tracker k _, fun j hj => toIdle_tracker_ne k _ hj, toIdle_ssc k (s.withNow now), raise_events_congr rfl rfl⟩

end Sys2Proof.Machine
end

section
/-! The occupancy map's commands and timers, and the planning pass in the map (chapter 4). -/

namespace Sys2Proof.Machine

set_option Elab.async false

/-! ## Settings -/

section Settings

variable {s : State} {now : AT} {a b c : Byte} {rest : List Byte}

theorem b1_toNat (a : Byte) : b1 a.toNat = [a] := by simp [b1]

theorem arg2_head (a b : Byte) (rest : List Byte) : arg2 (a :: b :: rest) 0 = 256 * a.toNat + b.toNat :=
  arg2_drop _ a b 0 rfl rfl

theorem exec_setAveraging (h : s.inHandIs 0x42 (a :: rest)) (ha : a.toNat ∈ [2, 4, 8, 16]) :
    exec (.setAveraging now) s = .next { s.answered now 0x42 .ok [a] with omap := { s.omap with divisor := a.toNat } } := by
  rw [exec, execSetAveraging]
  refine (handle_of_okay (u := (s.withNow now).withOmap { s.omap with divisor := a.toNat }) (out := [a]) h rfl (by simp)
    ?_).trans rfl
  have hd : arg1 (a :: rest) 0 = a.toNat := rfl
  rw [hd, ← b1_toNat a]
  exact if_pos (by simpa [or_assoc] using ha)

theorem exec_setAveraging_refused (h : s.inHandIs 0x42 (a :: rest)) (ha : a.toNat ∉ [2, 4, 8, 16]) :
    exec (.setAveraging now) s = .next (s.answered now 0x42 .badArgument []) := by
  rw [exec, execSetAveraging]
  refine handle_of_refuse h rfl (by simp) ?_
  have hd : arg1 (a :: rest) 0 = a.toNat := rfl
  rw [hd]
  exact if_neg (by simpa [and_assoc] using ha)

theorem exec_setMargin (h : s.inHandIs 0x43 (a :: rest)) :
    exec (.setMargin now) s = .next { s.answered now 0x43 .ok [BitVec.ofNat 8 (min 40 a.toNat)] with
      omap := { s.omap with margin := min 40 a.toNat } } := by
  rw [exec, execSetMargin]
  refine (handle_of_okay (u := (s.withNow now).withOmap { s.omap with margin := min 40 a.toNat })
    (out := b1 (min 40 a.toNat)) h rfl (by simp) ?_).trans rfl
  have hm : clampNat 0 40 (arg1 (a :: rest) 0) = min 40 a.toNat := congrArg (min 40) (Nat.zero_max _)
  rw [hm]
  rfl

theorem exec_setWeights (h : s.inHandIs 0x44 (a :: b :: c :: rest)) {w t : Nat}
    (hw : w = min 200 (256 * a.toNat + b.toNat)) (ht : t = min 240 c.toNat) :
    exec (.setWeights now) s = .next { s.answered now 0x44 .ok (b2 w ++ [BitVec.ofNat 8 t]) with
      omap := { s.omap with weight := w, pressureThreshold := t } } := by
  rw [exec, execSetWeights]
  refine (handle_of_okay (u := (s.withNow now).withOmap { s.omap with weight := w, pressureThreshold := t })
    (out := b2 w ++ b1 t) h rfl (by simp) ?_).trans rfl
  have hc : clampNat 0 240 (arg1 (a :: b :: c :: rest) 2) = t := (congrArg (min 240) (Nat.zero_max _)).trans ht.symm
  rw [arg2_head, hc, clampNat, Nat.zero_max, ← hw]
  rfl

theorem exec_setBarTime (h : s.inHandIs 0x45 (a :: b :: rest)) {t : Nat}
    (ht : t = min 3600 (max 60 (256 * a.toNat + b.toNat))) :
    exec (.setBarTime now) s = .next { s.answered now 0x45 .ok (b2 t) with omap := { s.omap with barTime := t } } := by
  rw [exec, execSetBarTime]
  refine (handle_of_okay (u := (s.withNow now).withOmap { s.omap with barTime := t }) (out := b2 t) h rfl (by simp)
    ?_).trans rfl
  rw [arg2_head, clampNat, ← ht]
  rfl

end Settings

/-! ## Bars -/

section Bars

variable {s : State} {now : AT} {a : Byte} {rest : List Byte} {c : Chan} {u : Nat} {f : Bool}

theorem setHeldOut_of_chan (hc : c.val = a.toNat) :
    setHeldOut f (a :: rest) s = okay [] (s.setChan c { s.chan c with heldOut := f }) := by
  rw [setHeldOut, arg_cons_zero, chanOf_of_val_eq hc]

theorem setHeldOut_refused (ha : 38 ≤ a.toNat) : setHeldOut f (a :: rest) s = refuse .badArgument s := by
  rw [setHeldOut, arg_cons_zero, chanOf_eq_none (by omega)]

theorem exec_radarBarExpiry_reached (hrun : s.phase = .running) (hu : (s.chan c).barredUntil = some u)
    (hle : u ≤ s.omap.barClock) :
    exec (.radarBarExpiry now c) s = .next ((s.withNow now).setChan c { s.chan c with barredUntil := none }) := by
  have hu' : ((s.withNow now).chan c).barredUntil = some u := hu
  rw [exec, execRadarBarExpiry, event_running hrun]
  simp only [hu']
  rw [if_pos (by exact hle)]
  rfl

theorem exec_radarBarExpiry_kept (hrun : s.phase = .running)
    (hu : ∀ u, (s.chan c).barredUntil = some u → s.omap.barClock < u) :
    exec (.radarBarExpiry now c) s = .next (s.withNow now) := by
  rw [exec, execRadarBarExpiry, event_running hrun]
  cases hb : (s.chan c).barredUntil with
  | none =>
    have hb' : ((s.withNow now).chan c).barredUntil = none := hb
    simp only [hb']
  | some u =>
    have hb' : ((s.withNow now).chan c).barredUntil = some u := hb
    simp only [hb']
    rw [if_neg (by exact not_le.mpr (hu u hb))]

theorem exec_barClockTick (hrun : s.phase = .running) :
    exec (.barClockTick now) s = .next (if reached (s.omap.lastRise + 1000000) now = true
      then { s with
        now, omap := { s.omap with barClock := min 4294967295 (s.omap.barClock + 1), lastRise := s.omap.lastRise + 1000000 } }
      else s.withNow now) := by
  rw [exec, execBarClockTick, event_running hrun]
  rfl

end Bars

/-- Settles O46: each setting with its clamp, the two bars by the channel's byte, the two timers. -/
theorem mapCommandsAndTimers : Obligations.MapCommandsAndTimers := by
  unfold Obligations.MapCommandsAndTimers
  intro now s
  refine ⟨fun a rest h => ⟨exec_setAveraging h, exec_setAveraging_refused h⟩, fun a rest h => exec_setMargin h,
    fun a b c rest h => exec_setWeights h rfl rfl, fun a b rest h => exec_setBarTime h rfl, fun row hrow a rest h => ?_,
    fun hrun => ⟨⟨fun hlt => ?_, fun hge => ?_⟩, fun c => ⟨fun u hu => exec_radarBarExpiry_reached hrun hu,
      fun u hu hlt => ?_, fun hnone => ?_⟩⟩⟩
  · simp only [List.mem_cons, List.not_mem_nil, or_false] at hrow
    rcases hrow with rfl | rfl
    · exact ⟨fun ha => handle_of_refuse h rfl (by simp) (setHeldOut_refused ha),
        fun c hc => (handle_of_okay h rfl (by simp) (setHeldOut_of_chan hc)).trans rfl⟩
    · exact ⟨fun ha => handle_of_refuse h rfl (by simp) (setHeldOut_refused ha),
        fun c hc => (handle_of_okay h rfl (by simp) (setHeldOut_of_chan hc)).trans rfl⟩
  · rw [exec_barClockTick hrun, if_neg (not_reached_of_lt hlt)]
  · rw [exec_barClockTick hrun, if_pos (reached_of_le hge)]
  · exact exec_radarBarExpiry_kept hrun fun v hv => by rw [hu] at hv; cases hv; exact hlt
  · exact exec_radarBarExpiry_kept hrun fun v hv => by rw [hnone] at hv; cases hv

/-! ## The planning pass in the map (R84 to R87) -/

section Pass

variable {s : State} {c : Chan}

theorem ovenTerm_of_some {policy : Policy} {x : Tracker} {o : Oven} (ho : x.oven = some o) :
    ovenTerm policy c x = if protecting policy .normal o = true ∧ o.lo ≤ c ∧ c ≤ o.hi
      then ((o.width + 2 * o.guardUs) * 1000 + o.period - 1) / o.period else 0 := by
  rw [ovenTerm, ho]
  simp only [Bool.and_eq_true, covers, decide_eq_true_eq, ceilDiv, Fin.le_def]

theorem ovenTerm_of_none {policy : Policy} {x : Tracker} (ho : x.oven = none) : ovenTerm policy c x = 0 := by
  rw [ovenTerm, ho]

/-- R86: two channels of 2.4 GHz that are not separated. -/
theorem near_iff {d : Chan} : (bandOf c = .ghz24 && bandOf d = .ghz24 && !separated c d) = true
    ↔ c.val ≤ 12 ∧ d.val ≤ 12 ∧ c.val < d.val + 5 ∧ d.val < c.val + 5 := by
  rw [Bool.and_eq_true, Bool.and_eq_true, decide_eq_true_eq, decide_eq_true_eq, bandOf_eq_24_iff, bandOf_eq_24_iff, and_assoc]
  refine and_congr_right fun hc => and_congr_right fun hd => ?_
  simp only [separated, bandOf_of_le_12 hc, bandOf_of_le_12 hd, Bool.not_eq_true', Bool.or_eq_false_iff,
    decide_eq_false_iff_not, not_le]
  omega

theorem pressureTerm_eq {w t : Nat} (e : Neighbour) : pressureTerm w t c e
    = if e.friendly = true ∨ e.level < t then 0
      else if e.chan = c then w + e.share / 2
      else if c.val ≤ 12 ∧ e.chan.val ≤ 12 ∧ c.val < e.chan.val + 5 ∧ e.chan.val < c.val + 5 then w / 2 + e.share / 4
      else 0 := by
  simp only [pressureTerm, near_iff, Bool.or_eq_true, decide_eq_true_eq]

theorem mapPass_chan (n : BitVec 16) (s : State) (c : Chan) : (mapPass n s).chan c = passed38 s c := chanTable_get _ c

end Pass

/-- Settles O47: the three terms of a channel's load, each as the rules say it. -/
theorem passStoresLoads : Obligations.PassStoresLoads := by
  unfold Obligations.PassStoresLoads
  intro n s c x cost w pressure
  have hcost : ovenCost s c = cost := by
    refine congrArg (fun l : List Nat => min 1000 l.sum) (List.map_congr_left fun k _ => ?_)
    cases ho : (s.tracker k).oven with
    | none => exact ovenTerm_of_none ho
    | some o => exact ovenTerm_of_some ho
  have hpressure : pressureOf s c = pressure :=
    congrArg (fun l : List Nat => min 1000 l.sum) (List.map_congr_left fun e _ => pressureTerm_eq e)
  refine ⟨?_, rfl, mapPass_touches _ _⟩
  rw [mapPass_chan, passed38, hcost, hpressure]
  rfl

end Sys2Proof.Machine
end

section
/-! The neighbour table (chapter 5): what an OVERHEARD does to it, its commands, shares and ageing at a round completion; and
first what the link does with any valid record (chapter 8). -/

namespace Sys2Proof.Machine

set_option Elab.async false

/-! ## A valid record of a radio that is not silent -/

section Records

variable {s : State} {now : AT} {r : Radio} {b : Byte}

theorem takeValid_of_not_silent (h : (s.link r).silent = false) : takeValid r (s.withNow now) = s.tookRecord now r := by
  have h' : ((s.withNow now).link r).silent = false := h
  rw [takeValid, h', if_neg (by decide)]
  rfl

theorem radioEvent_of_listens {body : State → State} (h : s.listens r) :
    radioEvent now r s body = .next (body (s.tookRecord now r)) := by
  obtain ⟨hrun, hresync, hsilent⟩ := h
  have hresync' : ((s.withNow now).link r).resync = false := hresync
  rw [radioEvent, event_running hrun]
  simp only [hresync', takeValid_of_not_silent hsilent]
  rfl

theorem withChan_of_val {c : Chan} {body : Chan → State → State} (h : c.val = b.toNat) :
    withChan r b s body = body c s := by
  rw [withChan, chanOf_of_val_eq h]

theorem withChan_refused {body : Chan → State → State} (h : 38 ≤ b.toNat) :
    withChan r b s body = s.withLinkError r .badChannel := by
  rw [withChan, chanOf_eq_none (by omega)]
  rfl

end Records

/-! ## OVERHEARD -/

section Overheard

variable {network : BitVec 32} {c : Chan} {es : List Neighbour}

theorem hasKey_eq_false {e : Neighbour} (h : ¬ (e.network = network ∧ e.chan = c)) : hasKey network c e = false :=
  Bool.eq_false_iff.mpr fun hk => h ((hasKey_iff _ _ _).mp hk)

/-- R94, R96: the one entry of the key is found, and the others are the rest of the list. -/
theorem find?_hasKey_of_split {pre post : List Neighbour} {e : Neighbour} (he : e.network = network ∧ e.chan = c)
    (hothers : ∀ x ∈ pre ++ post, ¬ (x.network = network ∧ x.chan = c)) :
    (pre ++ e :: post).find? (hasKey network c) = some e
      ∧ ((pre ++ e :: post).filter fun x => !hasKey network c x) = pre ++ post := by
  have hkey : hasKey network c e = true := (hasKey_iff _ _ _).mpr he
  have hpre : ∀ x ∈ pre, hasKey network c x = false := fun x hx => hasKey_eq_false (hothers x (List.mem_append_left _ hx))
  have hkeep : ∀ x ∈ pre ++ post, (!hasKey network c x) = true := fun x hx => by rw [hasKey_eq_false (hothers x hx)]; rfl
  constructor
  · rw [List.find?_append, List.find?_eq_none.mpr fun x hx => by rw [hpre x hx]; decide, List.find?_cons_of_pos hkey]
    rfl
  · rw [List.filter_append, List.filter_cons_of_neg (by rw [hkey]; decide), ← List.filter_append,
      List.filter_eq_self.mpr hkeep]

theorem find?_hasKey_of_none (h : ∀ x ∈ es, ¬ (x.network = network ∧ x.chan = c)) :
    es.find? (hasKey network c) = none :=
  List.find?_eq_none.mpr fun x hx => by rw [hasKey_eq_false (h x hx)]; decide

variable {s : State} {level airtime : Nat} {r : Radio}

/-- R97: room is left. -/
theorem makeEntry_of_room (h : s.ntab.entries.length < 64) :
    makeEntry network c level airtime r s = s.withNtab { s.ntab with
      entries := newEntry network c level airtime s.heard r s.ntab.entries :: s.ntab.entries
      changeNumber := s.ntab.changeNumber + 1 } := by
  have hroom : ¬ Config.tableSize ≤ s.ntab.entries.length := not_le.mpr h
  unfold makeEntry
  simp only [if_neg hroom]
  cases s.ntab.entries.getLast? <;> rfl

/-- R98: the tail of a full table leaves. -/
theorem makeEntry_of_full {init : List Neighbour} {tail : Neighbour} (hes : s.ntab.entries = init ++ [tail])
    (h : 64 ≤ s.ntab.entries.length) :
    makeEntry network c level airtime r s = raise .neighbourEvicted tail.chan.val (s.withNtab { s.ntab with
      entries := newEntry network c level airtime s.heard r init :: init
      changeNumber := s.ntab.changeNumber + 1 }) := by
  have hfull : Config.tableSize ≤ (init ++ [tail]).length := hes ▸ h
  unfold makeEntry
  simp only [hes, if_pos hfull, List.dropLast_concat, List.getLast?_concat]

end Overheard

/-- Settles O48: the channel's check, then an entry of the key, room for a new one, or a full table. -/
theorem overheardReportTaken : Obligations.OverheardReportTaken := by
  unfold Obligations.OverheardReportTaken
  intro now r network b raw airtime s hl u
  have hexec : exec (.overheard now r network b raw airtime) s
      = .next (withChan r b u fun c v => overheardReport r network c raw airtime v) := by
    rw [exec, execOverheard, radioEvent_of_listens hl]
  rw [hexec]
  refine ⟨fun hb => by rw [withChan_refused hb], fun c hc => ?_⟩
  rw [withChan_of_val hc, overheardReport]
  intro level here made
  refine ⟨fun pre e post hes hnet hchan hothers => ?_, fun hnew => ?_⟩
  · obtain ⟨hfind, hrest⟩ := find?_hasKey_of_split ⟨hnet, hchan⟩ hothers
    have hes' : u.ntab.entries = pre ++ e :: post := hes
    simp only [hes', hfind, hrest]
    rfl
  · have hfind : u.ntab.entries.find? (hasKey network c) = none := find?_hasKey_of_none hnew
    simp only [hfind]
    refine ⟨fun hroom => ?_, fun init tail hes hfull => ?_⟩
    · rw [makeEntry_of_room (by exact hroom)]
      rfl
    · rw [makeEntry_of_full (s := u) hes hfull]
      rfl

/-! ## The table's commands -/

section Commands

variable {s : State} {now : AT} {a b c d f : Byte} {rest : List Byte}

theorem flagOf_eq_none (hf : 2 ≤ f.toNat) : flagOf f = none := by
  unfold flagOf
  split <;> first | omega | rfl

theorem flagOf_of_code {on : Bool} (hf : f = if on = true then 1 else 0) : flagOf f = some on := by
  subst hf
  cases on <;> rfl

theorem exec_setNeighbourAge (h : s.inHandIs 0x52 (a :: b :: rest)) {n : Nat}
    (hn : n = min 3600 (max 10 (256 * a.toNat + b.toNat))) :
    exec (.setNeighbourAge now) s = .next { s.answered now 0x52 .ok (b2 n) with ntab := { s.ntab with ageLimit := n } } := by
  rw [exec, execSetNeighbourAge]
  refine (handle_of_okay (u := (s.withNow now).withNtab { s.ntab with ageLimit := n }) (out := b2 n) h rfl (by simp)
    ?_).trans rfl
  rw [arg2_head, clampNat, ← hn]
  rfl

theorem exec_markFriendly_refused (h : s.inHandIs 0x51 (a :: b :: c :: d :: f :: rest)) (hf : 2 ≤ f.toNat) :
    exec (.markFriendly now) s = .next (s.answered now 0x51 .badArgument []) := by
  rw [exec, execMarkFriendly]
  refine handle_of_refuse h rfl (by simp) ?_
  have harg : arg (a :: b :: c :: d :: f :: rest) 4 = f := rfl
  rw [harg, flagOf_eq_none hf]

theorem markChanges_eq (network : BitVec 32) (on : Bool) (es : List Neighbour) :
    markChanges network on es = es.countP fun e => e.network = network && e.friendly ≠ on :=
  List.countP_eq_length_filter.symm

theorem exec_markFriendly (h : s.inHandIs 0x51 (a :: b :: c :: d :: f :: rest)) {on : Bool}
    (hf : f = if on = true then 1 else 0) {n : Nat} {network : BitVec 32} (hnet : network = a ++ b ++ c ++ d)
    (hn : n = s.ntab.entries.countP fun e => e.network = network && e.friendly ≠ on) :
    exec (.markFriendly now) s = .next { s.answered now 0x51 .ok [BitVec.ofNat 8 n] with
      ntab := { s.ntab with
        entries := s.ntab.entries.map fun e => if e.network = network then { e with friendly := on } else e
        changeNumber := if n = 0 then s.ntab.changeNumber else s.ntab.changeNumber + 1 } } := by
  rw [exec, execMarkFriendly]
  refine (handle_of_okay (u := (s.withNow now).withNtab { s.ntab with
    entries := s.ntab.entries.map (marked network on)
    changeNumber := if n = 0 then s.ntab.changeNumber else s.ntab.changeNumber + 1 }) (out := b1 n) h rfl (by simp)
    ?_).trans rfl
  have harg : arg (a :: b :: c :: d :: f :: rest) 4 = f := rfl
  have hword : arg4 (a :: b :: c :: d :: f :: rest) 0 = network := hnet.symm
  rw [harg, flagOf_of_code hf, hword]
  have hcount : markChanges network on (s.withNow now).ntab.entries = n := (markChanges_eq _ _ _).trans hn.symm
  simp only [hcount]
  rfl

end Commands

/-! ## Shares and ageing (R100 to R102) -/

section Ageing

variable {barClock limit : Nat}

/-- R102: what is kept, the head of the table, ends with an entry not aged; what leaves is aged. -/
theorem dropAged_split (es : List Neighbour) : ∃ dropped, dropAged barClock limit es ++ dropped = es
    ∧ (∀ e ∈ dropped, limit < ageOf barClock e)
    ∧ ∀ e, (dropAged barClock limit es).getLast? = some e → ageOf barClock e ≤ limit := by
  induction es with
  | nil => exact ⟨[], rfl, by simp, by simp [dropAged]⟩
  | cons x es ih =>
    obtain ⟨dropped, hsplit, haged, hlast⟩ := ih
    cases hkept : dropAged barClock limit es with
    | nil =>
      rw [hkept, List.nil_append] at hsplit
      subst hsplit
      by_cases hx : limit < ageOf barClock x
      · have hstep : dropAged barClock limit (x :: dropped) = [] := by simp only [dropAged, hkept, if_pos hx]
        exact ⟨x :: dropped, by rw [hstep]; rfl, List.forall_mem_cons.mpr ⟨hx, haged⟩, by simp [hstep]⟩
      · have hstep : dropAged barClock limit (x :: dropped) = [x] := by simp only [dropAged, hkept, if_neg hx]
        refine ⟨dropped, by rw [hstep]; rfl, haged, fun e he => ?_⟩
        rw [hstep] at he
        cases he
        exact not_lt.mp hx
    | cons y ys =>
      have hstep : dropAged barClock limit (x :: es) = x :: y :: ys := by simp only [dropAged, hkept]
      rw [hkept] at hsplit hlast
      exact ⟨dropped, by rw [hstep, List.cons_append, hsplit], haged, fun e he => hlast e (by rw [hstep] at he; simpa using he)⟩

end Ageing

/-- Settles O49: the two commands, and the completion's split of the table with shares moved. -/
theorem neighbourCommandsAndAgeing : Obligations.NeighbourCommandsAndAgeing := by
  unfold Obligations.NeighbourCommandsAndAgeing
  intro now s
  refine ⟨fun a b rest h => exec_setNeighbourAge h rfl, fun a b c d f rest h => ⟨exec_markFriendly_refused h,
    fun on hf => exec_markFriendly h hf rfl rfl⟩, ?_⟩
  obtain ⟨dropped, hsplit, haged, hlast⟩ := dropAged_split (barClock := s.omap.barClock) (limit := s.ntab.ageLimit)
    (s.ntab.entries.map (shared (completionInterval s)))
  exact ⟨_, dropped, hsplit.trans rfl, haged, hlast, rfl⟩

end Sys2Proof.Machine
end

section
/-! The channel planner (chapter 6): switch orders and radar moves, the planning step of a radio, and what a RADAR does. -/

namespace Sys2Proof.Machine

set_option Elab.async false

/-! ## Planning records -/

theorem Pair.set_set {α : Type} (x : Pair α) (r : Radio) (a b : α) : (x.set r a).set r b = x.set r b := by
  cases r <;> rfl

theorem Pair.set_get {α : Type} (x : Pair α) (r : Radio) : x.set r (x.get r) = x := by
  cases r <;> rfl

theorem State.setRecord_setRecord (s : State) (r : Radio) (x y : PlanRecord) :
    (s.setRecord r x).setRecord r y = s.setRecord r y := by
  simp only [State.setRecord, State.withCpl, Pair.set_set]

theorem State.setLink_link_chan (s : State) (q : Radio) (x : Link) (hx : x.chan = (s.link q).chan) {r : Radio} :
    ((s.setLink q x).link r).chan = (s.link r).chan := by
  by_cases hr : r = q
  · subst hr
    exact (congrArg Link.chan (State.setLink_link s r x)).trans hx
  · exact congrArg Link.chan (State.setLink_link_ne s x hr)

theorem State.tookRecord_link_chan (s : State) (now : AT) (q r : Radio) :
    ((s.tookRecord now q).link r).chan = (s.link r).chan :=
  State.setLink_link_chan (s.withNow now) q _ (by rfl)

theorem otherRadio_ne (r : Radio) : otherRadio r ≠ r := by
  cases r <;> decide

/-! ## Switch orders and radar moves (R119, R125) -/

section Moves

variable {s : State} {r : Radio} {cur c : Chan}

/-- R119: an order drops the plans, is in flight until its deadline and is sent. -/
theorem switchOrder_eq (r : Radio) (cur c : Chan) (n : Nat) (source : Source) (s : State) :
    switchOrder r cur c n source s
      = (s.setLink r { s.link r with sent := (s.link r).sent ++ [.switch c n] }).setRecord r { s.record r with
          sustain := 0, candidate := none, proposal := none
          inFlight := some ⟨c, n, s.now + BitVec.ofNat 32 (n * 102400 + 1000000), source, cur⟩ } := rfl

theorem radarMove_of_busy (h : (s.record r).inFlight ≠ none ∨ gateServes (s.gate r) = false) : radarMove r s = s := by
  have hbusy : ¬ ((s.record r).inFlight.isNone && gateServes (s.gate r)) = true := by
    rcases h with h | h <;> simp [h]
  unfold radarMove
  split
  · rfl
  · exact if_neg hbusy

theorem radarMove_of_free (hcur : (s.link r).chan = some cur) (hfree : (s.record r).inFlight = none)
    (hserves : gateServes (s.gate r) = true) :
    radarMove r s = match bestOf s r with
      | some b => switchOrder r cur b 1 .radar s
      | none => raise .noChannel (radioCode r) s := by
  simp only [radarMove, hcur, hfree, hserves]
  rfl

theorem radarMove_of_no_best (hcur : (s.link r).chan = some cur) (hfree : (s.record r).inFlight = none)
    (hserves : gateServes (s.gate r) = true) (hbest : bestOf s r = none) :
    radarMove r s = raise .noChannel (radioCode r) s := by
  rw [radarMove_of_free hcur hfree hserves, hbest]

theorem radarMove_of_best {best : Chan} (hcur : (s.link r).chan = some cur) (hfree : (s.record r).inFlight = none)
    (hserves : gateServes (s.gate r) = true) (hbest : bestOf s r = some best) :
    radarMove r s = (s.setLink r { s.link r with sent := (s.link r).sent ++ [.switch best 1] }).setRecord r { s.record r with
      sustain := 0, candidate := none, proposal := none, inFlight := some ⟨best, 1, s.now + 1102400, .radar, cur⟩ } := by
  rw [radarMove_of_free hcur hfree hserves, hbest]
  rfl

theorem radarMove_radarMoved (hcur : (s.link r).chan = some c) : s.radarMoved r c (radarMove r s) := by
  refine ⟨radarMove_of_busy, fun hfree hserves => ⟨radarMove_of_no_best hcur hfree hserves, fun best hbest => ?_⟩⟩
  have hmove := radarMove_of_best hcur hfree hserves hbest
  refine ⟨?_, ?_, ?_, ?_, ?_, ?_⟩ <;> rw [hmove]
  · exact State.setRecord_record _ _ _
  · exact State.setLink_link s r _
  · exact State.setRecord_record_ne _ _ (otherRadio_ne r)
  · exact State.setLink_link_ne s _ (otherRadio_ne r)
  · rfl
  · exact (switchOrder_touches r c best 1 .radar s).mono

/-- R125: a radar move orders a switch; no radio's channel changes. -/
theorem radarMove_link_chan (q : Radio) : ((radarMove q s).link r).chan = (s.link r).chan := by
  unfold radarMove
  split
  · rfl
  · split
    · split
      · rw [switchOrder_eq]
        exact State.setLink_link_chan s q { s.link q with sent := (s.link q).sent ++ [.switch _ 1] } rfl
      · rfl
    · rfl

theorem radarAt_of_on (h : (s.link r).chan = some c) : radarAt c r s = radarMove r s := if_pos h

theorem radarAt_of_off (h : (s.link r).chan ≠ some c) : radarAt c r s = s := if_neg h

end Moves

/-! ## RADAR (R80, R125, R126) -/

theorem extendedBar_eq (old : Option Nat) (v : Nat) : extendedBar old v = max (old.getD 0) v := by
  cases old
  · exact (Nat.zero_max v).symm
  · rfl

/-- Settles O55: the bar, then each radio on the channel in order. -/
theorem radarBarsAndMoves : Obligations.RadarBarsAndMoves := by
  unfold Obligations.RadarBarsAndMoves
  intro now r b s hl u
  have hexec : exec (.radar now r b) s = .next (withChan r b u fun c w => plannerRadar c (barChannel c w)) := by
    rw [exec, execRadar, radioEvent_of_listens hl]
  rw [hexec]
  refine ⟨fun hb => by rw [withChan_refused hb], fun c hc => ?_⟩
  rw [withChan_of_val hc]
  intro till v
  have hbar : barChannel c u = v := by
    rw [barChannel, extendedBar_eq]
    rfl
  rw [hbar]
  have hon (q : Radio) : (v.link q).chan = (s.link q).chan := State.tookRecord_link_chan s now r q
  refine ⟨fun hnone => ?_, fun q hq hother => ?_, fun h0 h1 => ?_⟩
  · rw [plannerRadar, radarAt_of_off ((hon .r0).trans_ne (hnone .r0)), radarAt_of_off ((hon .r1).trans_ne (hnone .r1))]
  · have hcur : (v.link q).chan = some c := (hon q).trans hq
    refine ⟨_, ?_, radarMove_radarMoved hcur⟩
    cases q with
    | r0 =>
      rw [plannerRadar, radarAt_of_on hcur, radarAt_of_off]
      rw [radarMove_link_chan]
      exact (hon .r1).trans_ne hother
    | r1 => rw [plannerRadar, radarAt_of_off (r := .r0) ((hon .r0).trans_ne hother), radarAt_of_on hcur]
  · have hcur0 : (v.link .r0).chan = some c := (hon .r0).trans h0
    have hcur1 : ((radarMove .r0 v).link .r1).chan = some c := (radarMove_link_chan .r0).trans ((hon .r1).trans h1)
    exact ⟨_, _, by rw [plannerRadar, radarAt_of_on hcur0, radarAt_of_on hcur1], radarMove_radarMoved hcur0,
      radarMove_radarMoved hcur1⟩

/-! ## The planning step (R113 to R117) -/

section Planning

variable {s : State} {r : Radio} {cur best : Chan} {x : PlanRecord}

theorem planRadio_of_idle (h : (s.link r).chan = none ∨ (s.record r).inFlight ≠ none ∨ gateServes (s.gate r) = false) :
    planRadio r s = s := by
  unfold planRadio
  split
  · rfl
  · next cur hcur =>
    rcases h with h | h
    · rw [hcur] at h
      cases h
    · refine if_pos ?_
      rcases h with h | h <;> simp [h, Option.isSome_iff_ne_none]

variable (hcur : (s.link r).chan = some cur) (hfree : (s.record r).inFlight = none) (hserves : gateServes (s.gate r) = true)
include hcur hfree hserves

theorem planRadio_of_radar (hbar : (s.chan cur).barredUntil ≠ none) : planRadio r s = radarMove r s := by
  have hb : (s.chan cur).barredUntil.isSome = true := Option.isSome_iff_ne_none.mpr hbar
  simp only [planRadio, hcur, hfree, hserves, hb]
  rfl

theorem planRadio_of_clear (hbar : (s.chan cur).barredUntil = none) : planRadio r s = planningStep r cur s := by
  simp only [planRadio, hcur, hfree, hserves, hbar]
  rfl

end Planning

/-! ## The sustain test and the action test -/

section Step

variable {s : State} {r : Radio} {cur best : Chan}

/-- R114: a HOLDING radio that is not on its best notes the best alone. -/
theorem planningStep_of_holding (hh : (s.record r).holding = true) (hb : bestOf s r ≠ some cur) :
    planningStep r cur s = s.setRecord r { s.record r with lastBest := (bestOf s r).map fun b => (b, (s.chan b).load) } := by
  unfold planningStep
  exact if_pos (by simp [hh, hb])

theorem sustainAndAct_eq (best : Option Chan) (x : PlanRecord) :
    sustainAndAct r cur best (s.setRecord r x) = actionTest r cur best (s.setRecord r { x with
      sustain := (sustainTest s cur best x).1, candidate := (sustainTest s cur best x).2 }) := by
  have htest : sustainTest (s.setRecord r x) cur best x = sustainTest s cur best x := rfl
  rw [sustainAndAct, State.setRecord_record, htest, State.setRecord_setRecord]

/-- R114 to R116: any other radio is tested, with HOLDING cleared and the best noted. -/
theorem planningStep_of_tested (h : (s.record r).holding = false ∨ bestOf s r = some cur) {x : PlanRecord}
    (hx : x = { s.record r with lastBest := (bestOf s r).map fun b => (b, (s.chan b).load), holding := false }) :
    planningStep r cur s = actionTest r cur (bestOf s r) (s.setRecord r { x with
      sustain := (sustainTest s cur (bestOf s r) x).1, candidate := (sustainTest s cur (bestOf s r) x).2 }) := by
  have htested : ¬ ((s.record r).holding && decide (bestOf s r ≠ some cur)) = true := by
    rcases h with h | h <;> simp [h]
  rw [← sustainAndAct_eq, hx]
  exact if_neg htested

theorem sustainTest_of_gain {x : PlanRecord} (h : best ≠ cur
      ∧ (s.chan best).load + s.cpl.hysteresis ≤ if (s.chan cur).permitted then (s.chan cur).load else 1000) :
    sustainTest s cur (some best) x = (if x.candidate = some best then min 15 (x.sustain + 1) else 1, some best) := by
  refine (if_pos h).trans ?_
  split <;> rfl

theorem sustainTest_of_no_gain {x : PlanRecord} (h : ¬ (best ≠ cur
      ∧ (s.chan best).load + s.cpl.hysteresis ≤ if (s.chan cur).permitted then (s.chan cur).load else 1000)) :
    sustainTest s cur (some best) x = (0, none) := if_neg h

theorem stayPassed_iff {x : PlanRecord} :
    stayPassed s x = true ↔ ∀ h, x.lastSwitch = some h → h.second + s.cpl.minStay ≤ s.omap.barClock := by
  unfold stayPassed
  cases x.lastSwitch <;> simp

theorem actionTest_none : actionTest r cur none s = s := rfl

theorem actionTest_of_wait (h : (s.record r).sustain < s.cpl.sustainLimit ∨ ¬ stayPassed s (s.record r) = true
    ∨ s.cpl.mode = .fixed) : actionTest r cur (some best) s = s := by
  unfold actionTest
  simp only
  split
  · next hact =>
    rcases h with h | h | h
    · omega
    · exact absurd hact.2 h
    · rw [h]
  · rfl

theorem actionTest_of_auto (hn : s.cpl.sustainLimit ≤ (s.record r).sustain) (hstay : stayPassed s (s.record r) = true)
    (hm : s.cpl.mode = .auto) :
    actionTest r cur (some best) s = switchOrder r cur best (s.record r).announce .planner s := by
  refine (if_pos ⟨hn, hstay⟩).trans ?_
  rw [hm]

theorem actionTest_of_advise (hn : s.cpl.sustainLimit ≤ (s.record r).sustain) (hstay : stayPassed s (s.record r) = true)
    (hm : s.cpl.mode = .advise) : actionTest r cur (some best) s = propose r cur best s := by
  refine (if_pos ⟨hn, hstay⟩).trans ?_
  rw [hm]

theorem switchOrder_setRecord {c : Chan} {n : Nat} {source : Source} (y : PlanRecord) :
    switchOrder r cur c n source (s.setRecord r y)
      = (s.setLink r { s.link r with sent := (s.link r).sent ++ [.switch c n] }).setRecord r { y with
          sustain := 0, candidate := none, proposal := none
          inFlight := some ⟨c, n, s.now + BitVec.ofNat 32 (n * 102400 + 1000000), source, cur⟩ } := by
  rw [switchOrder_eq, State.setRecord_record]
  exact State.setRecord_setRecord (s.setLink r _) r y _

theorem propose_setRecord {c : Chan} (y : PlanRecord) {z : PlanRecord} (hz : z = { y with
      proposal := some ⟨c, s.omap.passRound, (s.chan cur).load, (s.chan c).load⟩, sustain := 0, candidate := none }) :
    propose r cur c (s.setRecord r y)
      = if newsOf c y.proposal = true then raise .proposal (radioCode r) (s.setRecord r z) else s.setRecord r z := by
  rw [propose, State.setRecord_record, State.setRecord_setRecord, hz]
  rfl

theorem newsOf_eq {c : Chan} {old : Option Proposal} :
    newsOf c old = !decide (old.map (·.chan) = some c) := by
  cases old <;> simp [newsOf]

end Step

/-- Settles O51: the pass's steps that pass a radio over, its radar move, then the sustain and action tests case by case. -/
theorem planningStepSustainsAndActs : Obligations.PlanningStepSustainsAndActs := by
  unfold Obligations.PlanningStepSustainsAndActs
  refine ⟨fun s => rfl, fun s r => ⟨planRadio_of_idle, fun cur hcur hfree hserves => ⟨fun hbar => ⟨fun hbest => ?_,
    fun best hbest => ?_⟩, fun hclear hbest hlimit => ⟨fun hh => ?_, fun hh => ?_⟩, fun best hclear hbest => ?_⟩⟩⟩
  · rw [planRadio_of_radar hcur hfree hserves hbar, radarMove_of_no_best hcur hfree hserves hbest]
  · rw [planRadio_of_radar hcur hfree hserves hbar, radarMove_of_best hcur hfree hserves hbest]
  · rw [planRadio_of_clear hcur hfree hserves hclear, planningStep_of_holding hh (by rw [hbest]; simp), hbest]
    rfl
  · rw [planRadio_of_clear hcur hfree hserves hclear, planningStep_of_tested (.inl hh) rfl, hbest, actionTest_none]
    refine congrArg (s.setRecord r) ?_
    rw [← hh]
    rfl
  · rw [planRadio_of_clear hcur hfree hserves hclear]
    intro noted gain n stayed
    refine ⟨fun hh hne => ?_, fun htested => ?_⟩
    · rw [planningStep_of_holding hh (by rw [hbest]; simpa using hne), hbest]
      rfl
    · have hx : ({ noted with holding := false } : PlanRecord)
          = { s.record r with lastBest := (bestOf s r).map fun b => (b, (s.chan b).load), holding := false } := by
        rw [hbest]
        rfl
      have hstep := planningStep_of_tested (htested.imp_right fun h => hbest.trans (congrArg some h)) hx
      rw [hbest] at hstep
      have hgained (hgain : gain) : planningStep r cur s = actionTest r cur (some best)
          (s.setRecord r { noted with holding := false, sustain := n, candidate := some best }) := by
        rw [hstep, sustainTest_of_gain hgain]
      refine ⟨fun hgain hlimit => ?_, fun hgain hwait => ?_, fun hgain hn hstay hm => ?_, fun hgain hn hstay hm => ?_⟩
      · rw [hstep, sustainTest_of_no_gain hgain]
        refine actionTest_of_wait (.inl ?_)
        rw [State.setRecord_record]
        exact Nat.pos_of_ne_zero hlimit
      · rw [hgained hgain]
        refine actionTest_of_wait ?_
        rw [State.setRecord_record]
        exact hwait.imp_right fun h => h.imp_left fun hstay hpassed => hstay (stayPassed_iff.mp hpassed)
      · have hpassed : stayPassed s (s.record r) = true := stayPassed_iff.mpr hstay
        have hact := actionTest_of_auto (cur := cur) (best := best)
          (s := s.setRecord r { noted with holding := false, sustain := n, candidate := some best })
          (by rw [State.setRecord_record]; exact hn) (by rw [State.setRecord_record]; exact hpassed) hm
        rw [switchOrder_setRecord, State.setRecord_record] at hact
        refine ⟨_, (hgained hgain).trans hact, State.setRecord_record _ _ _, State.setLink_link s r _, ?_⟩
        exact (setLink_touches s r _).step (setRecord_touches _ _ _)
      · have hpassed : stayPassed s (s.record r) = true := stayPassed_iff.mpr hstay
        have hact := actionTest_of_advise (cur := cur) (best := best)
          (s := s.setRecord r { noted with holding := false, sustain := n, candidate := some best })
          (by rw [State.setRecord_record]; exact hn) (by rw [State.setRecord_record]; exact hpassed) hm
        rw [propose_setRecord _ rfl, newsOf_eq] at hact
        by_cases hold : (s.record r).proposal.map (·.chan) = some best
        · rw [if_neg (by rw [decide_eq_true (by exact hold)]; decide)] at hact
          refine ⟨_, (hgained hgain).trans hact, State.setRecord_record _ _ _, ?_, (setRecord_touches _ _ _).mono⟩
          rw [if_pos hold]
          rfl
        · rw [if_pos (by rw [decide_eq_false (by exact hold)]; rfl)] at hact
          refine ⟨_, (hgained hgain).trans hact, State.setRecord_record _ _ _, ?_,
            (setRecord_touches _ _ _).step (raise_touches _ _ _)⟩
          rw [if_neg hold]
          exact raise_events_congr rfl rfl

end Sys2Proof.Machine
end

section
/-! The planner's commands, the switch deadline, and what STATUS and SWITCHED do to a radio's place (chapters 6 and 8). -/

namespace Sys2Proof.Machine

set_option Elab.async false

/-! ## SET PLANNER, SET RADIO and CLEAR HOLD (R109, R110, R127) -/

section Settings

variable {s : State} {now : AT} {a b c d e f g : Byte} {rest : List Byte}

theorem planModeOf_eq_none (h : 3 ≤ a.toNat) : planModeOf a = none := by
  unfold planModeOf
  split <;> first | omega | rfl

theorem planModeOf_of_code {m : PlanMode} (h : m.code = a.toNat) : planModeOf a = some m := by
  unfold planModeOf
  rw [← h]
  cases m <;> rfl

theorem actionOf_eq_none (h : 3 ≤ a.toNat) : actionOf a = none := by
  unfold actionOf
  split <;> first | omega | rfl

theorem actionOf_of_code {m : SilenceAction} (h : m.code = a.toNat) : actionOf a = some m := by
  unfold actionOf
  rw [← h]
  cases m <;> rfl

theorem setMode_mode (m : PlanMode) (u : State) : (setMode m u).cpl.mode = m := by
  unfold setMode
  split
  · next h => exact h.symm
  · rfl

/-- R109: a change to AUTO or FIXED withdraws the standing proposals. -/
theorem setMode_record (m : PlanMode) (u : State) (r : Radio) : (setMode m u).record r
    = if m ≠ u.cpl.mode ∧ m ≠ .advise then { u.record r with proposal := none } else u.record r := by
  unfold setMode
  by_cases hm : m = u.cpl.mode
  · rw [if_pos hm, if_neg fun h : m ≠ _ ∧ m ≠ _ => h.1 hm]
  · rw [if_neg hm]
    by_cases ha : m = .advise
    · rw [if_neg fun h : m ≠ _ ∧ m ≠ _ => h.2 ha, if_pos ha]
      rfl
    · rw [if_pos (⟨hm, ha⟩ : m ≠ _ ∧ m ≠ _), if_neg ha]
      cases r <;> rfl

theorem exec_setPlanner_refused (h : s.inHandIs 0x60 (a :: b :: c :: d :: e :: f :: g :: rest))
    (hbad : 3 ≤ a.toNat ∨ 3 ≤ g.toNat) : exec (.setPlanner now) s = .next (s.answered now 0x60 .badArgument []) := by
  rw [exec, execSetPlanner]
  refine handle_of_refuse h rfl (by simp) ?_
  have ha : arg (a :: b :: c :: d :: e :: f :: g :: rest) 0 = a := rfl
  have hg : arg (a :: b :: c :: d :: e :: f :: g :: rest) 6 = g := rfl
  rw [ha, hg]
  rcases hbad with hbad | hbad
  · rw [planModeOf_eq_none hbad]
  · rw [actionOf_eq_none hbad]
    cases planModeOf a <;> rfl

theorem exec_setPlanner (h : s.inHandIs 0x60 (a :: b :: c :: d :: e :: f :: g :: rest)) {m : PlanMode} {act : SilenceAction}
    (hm : m.code = a.toNat) (hact : act.code = g.toNat) {x l st : Nat} (hx : x = min 1000 (256 * b.toNat + c.toNat))
    (hl : l = min 15 (max 1 d.toNat)) (hst : st = min 3600 (256 * e.toNat + f.toNat)) {u : State}
    (hu : u = (setMode m (s.withNow now)).withCpl { (setMode m (s.withNow now)).cpl with
      hysteresis := x, sustainLimit := l, minStay := st, action := act }) :
    exec (.setPlanner now) s = .next (u.withHost { u.host with
      inHand := none, response := some ⟨.ok, 0x60, [a] ++ b2 x ++ [BitVec.ofNat 8 l] ++ b2 st ++ [g]⟩ }) := by
  rw [exec, execSetPlanner]
  refine handle_of_okay h rfl (by simp) ?_
  have ha : arg (a :: b :: c :: d :: e :: f :: g :: rest) 0 = a := rfl
  have hg : arg (a :: b :: c :: d :: e :: f :: g :: rest) 6 = g := rfl
  have hbc := arg2_drop (a :: b :: c :: d :: e :: f :: g :: rest) b c 1 rfl rfl
  have hef := arg2_drop (a :: b :: c :: d :: e :: f :: g :: rest) e f 4 rfl rfl
  have hd : arg1 (a :: b :: c :: d :: e :: f :: g :: rest) 3 = d.toNat := rfl
  rw [ha, hg, planModeOf_of_code hm, actionOf_of_code hact]
  simp only [hbc, hef, hd, clampNat, Nat.zero_max, ← hx, ← hl, ← hst, ← hu]
  have hbytes : plannerSettingsBytes u.cpl = [a] ++ b2 x ++ [BitVec.ofNat 8 l] ++ b2 st ++ [g] := by
    rw [plannerSettingsBytes, hu]
    simp only [State.withCpl_cpl, setMode_mode, hm, hact, b1_toNat]
    rfl
  rw [hbytes]

theorem defaultChanOf_eq_none (h : 38 ≤ b.toNat ∧ b ≠ 0xFF) : defaultChanOf b = none := by
  refine (if_neg h.2).trans ?_
  rw [chanOf_eq_none (by omega)]
  rfl

theorem defaultChanOf_of_code {ch : Option Chan} (h : b.toNat = (ch.map (·.val)).getD 0xFF) : defaultChanOf b = some ch := by
  cases ch with
  | none => exact if_pos (BitVec.eq_of_toNat_eq h)
  | some x =>
    have hx : x.val = b.toNat := h.symm
    rw [defaultChanOf, if_neg, chanOf_of_val_eq hx]
    · rfl
    · intro hb
      have := x.isLt
      rw [hb] at hx
      exact absurd (hx ▸ this) (by decide)

theorem bFlag_of_code {on : Bool} (hc : c = if on = true then 1 else 0) : bFlag on = [c] := by
  subst hc
  cases on <;> rfl

theorem exec_setRadio_refused (h : s.inHandIs 0x61 (a :: b :: c :: d :: rest))
    (hbad : 2 ≤ a.toNat ∨ (38 ≤ b.toNat ∧ b ≠ 0xFF) ∨ 2 ≤ c.toNat) :
    exec (.setRadio now) s = .next (s.answered now 0x61 .badArgument []) := by
  rw [exec, execSetRadio]
  refine handle_of_refuse h rfl (by simp) ?_
  have hc : arg (a :: b :: c :: d :: rest) 2 = c := rfl
  rw [arg_cons_zero, arg_cons_succ, arg_cons_zero, hc]
  rcases hbad with hbad | hbad | hbad
  · rw [radioOf_eq_none hbad]
  · rw [defaultChanOf_eq_none hbad]
    cases radioOf a <;> rfl
  · rw [flagOf_eq_none hbad]
    cases radioOf a <;> cases defaultChanOf b <;> rfl

theorem exec_setRadio (h : s.inHandIs 0x61 (a :: b :: c :: d :: rest)) {r : Radio} {ch : Option Chan} {on : Bool}
    (ha : radioCode r = a.toNat) (hb : b.toNat = (ch.map (·.val)).getD 0xFF) (hc : c = if on = true then 1 else 0) {n : Nat}
    (hn : n = min 15 (max 1 d.toNat)) :
    exec (.setRadio now) s = .next
      ((s.answered now 0x61 .ok (bOpt 1 bChan ch ++ [c, BitVec.ofNat 8 n])).setRecord r
        { s.record r with defaultChan := ch, holdOnReturn := on, announce := n }) := by
  rw [exec, execSetRadio]
  have hc' : arg (a :: b :: c :: d :: rest) 2 = c := rfl
  have hd : arg1 (a :: b :: c :: d :: rest) 3 = d.toNat := rfl
  refine (handle_of_okay (u := (s.withNow now).setRecord r { s.record r with
    defaultChan := ch, holdOnReturn := on, announce := n }) (out := bOpt 1 bChan ch ++ bFlag on ++ b1 n) h rfl (by simp)
    ?_).trans ?_
  · rw [arg_cons_zero, arg_cons_succ, arg_cons_zero, hc', hd, radioOf_of_code ha.symm, defaultChanOf_of_code hb,
      flagOf_of_code hc, clampNat, ← hn]
    rfl
  · rw [bFlag_of_code hc, List.append_assoc]
    rfl

theorem exec_clearHold_refused (h : s.inHandIs 0x64 (a :: rest)) (ha : 2 ≤ a.toNat) :
    exec (.clearHold now) s = .next (s.answered now 0x64 .badArgument []) := by
  rw [exec, execClearHold]
  exact handle_of_refuse h rfl (by simp) (by rw [arg_cons_zero, radioOf_eq_none ha])

theorem exec_clearHold (h : s.inHandIs 0x64 (a :: rest)) {r : Radio} (ha : radioCode r = a.toNat) :
    exec (.clearHold now) s = .next ((s.answered now 0x64 .ok []).setRecord r { s.record r with holding := false }) := by
  rw [exec, execClearHold]
  exact (handle_of_okay (u := (s.withNow now).setRecord r { s.record r with holding := false }) (out := []) h rfl (by simp)
    (by rw [arg_cons_zero, radioOf_of_code ha.symm]; rfl)).trans rfl

end Settings

/-- Settles O52: each command refused or stored; SET PLANNER's records by `setMode_record`. -/
theorem plannerSettings : Obligations.PlannerSettings := by
  unfold Obligations.PlannerSettings
  intro now s
  refine ⟨fun a b c d e f g rest h => ⟨exec_setPlanner_refused h, fun m act hm hact => ?_⟩,
    fun a b c d rest h => ⟨exec_setRadio_refused h, fun r ch on ha hb hc =>
      (exec_setRadio h ha hb hc rfl).trans (by cases ch <;> rfl)⟩,
    fun a rest h => ⟨exec_clearHold_refused h, fun r ha => exec_clearHold h ha⟩⟩
  have hexec := exec_setPlanner (now := now) h hm hact rfl rfl rfl rfl
  refine ⟨_, hexec, ?_, ?_, fun r => setMode_record m (s.withNow now) r, exec_touches hexec⟩
  · have hhost : (setMode m (s.withNow now)).host = s.host := (setMode_touches m (s.withNow now) .host (by decide)).symm
    rw [State.answered, ← hhost]
    rfl
  · have hmode := setMode_mode m (s.withNow now)
    exact congrArg (fun md => ({ (setMode m (s.withNow now)).cpl with
      mode := md
      hysteresis := _, sustainLimit := _, minStay := _, action := act } : Cpl)) hmode

/-! ## SET CHANNEL, ACCEPT PROPOSAL and the switch deadline (R120, R121, R123) -/

section HostSwitch

variable {s : State} {now : AT} {r : Radio} {c cur : Chan} {count : Nat}

theorem hostSwitch_of_wrong_state
    (h : (s.link r).chan = none ∨ gateServes (s.gate r) = false ∨ (s.record r).inFlight ≠ none) :
    hostSwitch r c count s = refuse .wrongState s := by
  unfold hostSwitch
  split
  · rfl
  · next cur hcur =>
    rcases h with h | h
    · rw [hcur] at h
      cases h
    · refine if_pos ?_
      rcases h with h | h <;> simp [h, Option.isSome_iff_ne_none]

variable (hcur : (s.link r).chan = some cur) (hserves : gateServes (s.gate r) = true) (hfree : (s.record r).inFlight = none)
include hcur hserves hfree

theorem hostSwitch_of_free : hostSwitch r c count s
    = if (!eligible s r c) = true then refuse .notEligible s
      else if c = cur then refuse .badArgument s
      else
        let n := if count = 0 then (s.record r).announce else min 15 count
        let s' := switchOrder r cur c n .host s
        okay (bAT (orderDeadline s.now n)) (s'.setRecord r { s'.record r with holding := false }) := by
  simp only [hostSwitch, hcur, hserves, hfree]
  rfl

theorem hostSwitch_of_not_eligible (h : eligible s r c = false) : hostSwitch r c count s = refuse .notEligible s := by
  rw [hostSwitch_of_free hcur hserves hfree, h]
  rfl

theorem hostSwitch_of_here (h : eligible s r c = true) (hc : c = cur) :
    hostSwitch r c count s = refuse .badArgument s := by
  rw [hostSwitch_of_free hcur hserves hfree, h]
  exact if_pos hc

/-- R119, R120: the order. -/
theorem hostSwitch_ordered (h : eligible s r c = true) (hc : c ≠ cur) {n : Nat}
    (hn : n = if count = 0 then (s.record r).announce else min 15 count) :
    hostSwitch r c count s = okay (bAT (s.now + BitVec.ofNat 32 (n * 102400 + 1000000)))
      ((s.setLink r { s.link r with sent := (s.link r).sent ++ [.switch c n] }).setRecord r { s.record r with
        sustain := 0, candidate := none, proposal := none, holding := false
        inFlight := some ⟨c, n, s.now + BitVec.ofNat 32 (n * 102400 + 1000000), .host, cur⟩ }) := by
  rw [hostSwitch_of_free hcur hserves hfree, h, if_neg (by decide), if_neg hc]
  simp only [← hn, switchOrder_eq, State.setRecord_record, State.setRecord_setRecord]
  rfl

end HostSwitch

/-- What SET CHANNEL and ACCEPT PROPOSAL share: the checks of R120 after the arguments, and the order with source HOST. -/
def HostSwitchChecked (now : AT) (s : State) (r : Radio) (i : Instr) (code : Byte) (c : Chan) (count : Nat) : Prop :=
  ((s.link r).chan = none ∨ gateServes (s.gate r) = false ∨ (s.record r).inFlight ≠ none →
    exec i s = .next (s.answered now code .wrongState []))
  ∧ ∀ cur, (s.link r).chan = some cur → gateServes (s.gate r) = true → (s.record r).inFlight = none →
    (eligible s r c = false → exec i s = .next (s.answered now code .notEligible []))
    ∧ (eligible s r c = true → c = cur → exec i s = .next (s.answered now code .badArgument []))
    ∧ (eligible s r c = true → c ≠ cur →
      let n := if count = 0 then (s.record r).announce else min 15 count
      let due := now + BitVec.ofNat 32 (n * 102400 + 1000000)
      ∃ t, exec i s = .next t ∧ t.host = (s.answered now code .ok (bAT due)).host
        ∧ t.record r = { s.record r with
            sustain := 0, candidate := none, proposal := none, holding := false
            inFlight := some ⟨c, n, due, .host, cur⟩ }
        ∧ t.link r = { s.link r with sent := (s.link r).sent ++ [.switch c n] }
        ∧ t.record (otherRadio r) = s.record (otherRadio r) ∧ t.link (otherRadio r) = s.link (otherRadio r)
        ∧ touchesOnly [.now, .host, .cpl, .links] s t)

section Checked

variable {now : AT} {s : State} {r : Radio} {i : Instr} {code : Byte} {k m : Nat} {p : List Byte} {c : Chan} {count : Nat}
  {body : List Byte → State → (Code × List Byte) × State}

/-- R120: a command in hand whose body is the host's switch meets its checks. -/
theorem hostSwitchChecked (h : s.inHandIs code p) (hexec : exec i s = handle k m now s body) (hk : code.toNat = k)
    (hm : m ≤ p.length) (hbody : body p (s.withNow now) = hostSwitch r c count (s.withNow now)) :
    HostSwitchChecked now s r i code c count := by
  refine ⟨fun hwrong => ?_, fun cur hcur hserves hfree => ⟨fun hel => ?_, fun hel hc => ?_, fun hel hc => ?_⟩⟩
  · exact hexec.trans (handle_of_refuse h hk hm (hbody.trans (hostSwitch_of_wrong_state (by exact hwrong))))
  · exact hexec.trans (handle_of_refuse h hk hm
      (hbody.trans (hostSwitch_of_not_eligible (by exact hcur) (by exact hserves) (by exact hfree) (by exact hel))))
  · exact hexec.trans (handle_of_refuse h hk hm
      (hbody.trans (hostSwitch_of_here (by exact hcur) (by exact hserves) (by exact hfree) (by exact hel) hc)))
  · intro n due
    have hordered := hostSwitch_ordered (s := s.withNow now) (r := r) (c := c) (cur := cur) (count := count) hcur hserves
      hfree hel hc (n := n) rfl
    refine ⟨_, hexec.trans (handle_of_okay h hk hm (hbody.trans hordered)), rfl, State.setRecord_record _ r _,
      State.setLink_link (s.withNow now) r _, State.setRecord_record_ne _ _ (otherRadio_ne r),
      State.setLink_link_ne (s.withNow now) _ (otherRadio_ne r), ?_⟩
    intro q hq
    cases q <;> first | rfl | exact absurd (by decide) hq

end Checked

section SwitchCommands

variable {s : State} {now : AT} {r : Radio} {a b n : Byte} {rest : List Byte}

theorem exec_setChannel_refused (h : s.inHandIs 0x62 (a :: b :: n :: rest)) (hbad : 2 ≤ a.toNat ∨ 38 ≤ b.toNat) :
    exec (.setChannel now) s = .next (s.answered now 0x62 .badArgument []) := by
  rw [exec, execSetChannel]
  refine handle_of_refuse h rfl (by simp) ?_
  rw [arg_cons_zero, arg_cons_succ, arg_cons_zero]
  rcases hbad with hbad | hbad
  · rw [radioOf_eq_none hbad]
  · rw [chanOf_eq_none (by omega)]
    cases radioOf a <;> rfl

theorem exec_acceptProposal_refused (h : s.inHandIs 0x63 (a :: rest)) (ha : 2 ≤ a.toNat) :
    exec (.acceptProposal now) s = .next (s.answered now 0x63 .badArgument []) := by
  rw [exec, execAcceptProposal]
  exact handle_of_refuse h rfl (by simp) (by rw [arg_cons_zero, radioOf_eq_none ha])

theorem exec_acceptProposal_of_none (h : s.inHandIs 0x63 (a :: rest)) (ha : radioCode r = a.toNat)
    (hp : (s.record r).proposal = none) : exec (.acceptProposal now) s = .next (s.answered now 0x63 .wrongState []) := by
  have hp' : ((s.withNow now).record r).proposal = none := hp
  rw [exec, execAcceptProposal]
  refine handle_of_refuse h rfl (by simp) ?_
  rw [arg_cons_zero, radioOf_of_code ha.symm]
  simp only [hp']

theorem exec_switchDeadline (hrun : s.phase = .running) : exec (.switchDeadline now r) s
    = .next (match (s.record r).inFlight with
      | none => s.withNow now
      | some w => if reached w.deadline now = true
        then raise .switchFailed (radioCode r) ((s.withNow now).setRecord r { s.record r with inFlight := none })
        else s.withNow now) := by
  rw [exec, execSwitchDeadline, event_running hrun]
  cases hw : (s.record r).inFlight with
  | none =>
    have hw' : ((s.withNow now).record r).inFlight = none := hw
    simp only [hw']
  | some w =>
    have hw' : ((s.withNow now).record r).inFlight = some w := hw
    simp only [hw']
    rfl

end SwitchCommands

/-- Settles O53: the two commands share the checks of `hostSwitchChecked`; the deadline by whether it is reached. -/
theorem hostSwitchOrders : Obligations.HostSwitchOrders := by
  unfold Obligations.HostSwitchOrders
  intro now s r checked
  refine ⟨fun a b n rest h => ⟨exec_setChannel_refused h, fun c ha hc => ?_⟩,
    fun a rest h => ⟨exec_acceptProposal_refused h, exec_acceptProposal_of_none h, fun q ha hq => ?_⟩,
    fun hrun => ⟨fun w hw hge => ?_, fun w hw hlt => ?_, fun hnone => ?_⟩⟩
  · refine hostSwitchChecked (k := 0x62) (m := 3) h (by rw [exec, execSetChannel]) rfl (by simp) ?_
    simp only [arg_cons_zero, arg_cons_succ, radioOf_of_code ha.symm, chanOf_of_val_eq hc]
    rfl
  · have hq' : ((s.withNow now).record r).proposal = some q := hq
    refine hostSwitchChecked (k := 0x63) (m := 1) h (by rw [exec, execAcceptProposal]) rfl (by simp) ?_
    simp only [arg_cons_zero, radioOf_of_code ha.symm, hq']
  · rw [exec_switchDeadline hrun, hw]
    exact congrArg _ (if_pos (reached_of_le hge))
  · rw [exec_switchDeadline hrun, hw]
    exact congrArg _ (if_neg (not_reached_of_lt hlt))
  · rw [exec_switchDeadline hrun, hnone]

end Sys2Proof.Machine
end

section
/-! STATUS and SWITCHED (chapters 6 and 8): the field checks, a radio's first place, and a change of its channel. -/

namespace Sys2Proof.Machine

set_option Elab.async false

/-! ## Changes of channel (R122, R124) -/

section Changes

variable {s v : State} {r : Radio} {c : Chan} {x : PlanRecord}

theorem moveIfRadar_of_clear (h : (v.chan c).barredUntil = none ∨ gateServes (v.gate r) = false) : moveIfRadar r c v = v := by
  rw [moveIfRadar]
  rcases h with h | h
  · rw [h]
    rfl
  · rw [radarMove_of_busy (.inr h), ite_self]

theorem moveIfRadar_of_radar (h : (v.chan c).barredUntil ≠ none) : moveIfRadar r c v = radarMove r v :=
  if_pos (Option.isSome_iff_ne_none.mpr h)

/-- What a state `v` that has radio `r` on `c` with the record `x`, no switch in flight, becomes as it arrives there. -/
def ArrivesAt (r : Radio) (c : Chan) (x : PlanRecord) (v w : State) : Prop :=
  ((v.chan c).barredUntil = none ∨ gateServes (v.gate r) = false → w = v)
  ∧ ((v.chan c).barredUntil ≠ none → gateServes (v.gate r) = true →
    (bestOf v r = none → w = raise .noChannel (radioCode r) v)
    ∧ ∀ best, bestOf v r = some best →
      w = (v.setLink r { v.link r with sent := (v.link r).sent ++ [.switch best 1] }).setRecord r { x with
        inFlight := some ⟨best, 1, v.now + 1102400, .radar, c⟩ })

theorem moveIfRadar_arrives (hc : (v.link r).chan = some c) (hx : v.record r = x) (hfree : x.inFlight = none)
    (hdrop : dropPlans x = x) : ArrivesAt r c x v (moveIfRadar r c v) := by
  subst hx
  refine ⟨moveIfRadar_of_clear, fun hbar hserves => ⟨fun hbest => ?_, fun best hbest => ?_⟩⟩
  · rw [moveIfRadar_of_radar hbar, radarMove_of_no_best hc hfree hserves hbest]
  · rw [moveIfRadar_of_radar hbar, radarMove_of_best hc hfree hserves hbest]
    exact congrArg (fun y : PlanRecord => (v.setLink r _).setRecord r
      { y with inFlight := some ⟨best, 1, v.now + 1102400, .radar, c⟩ }) hdrop

/-- R122: the switch in flight is closed. -/
theorem closeSwitch_eq (r : Radio) (w : Switch) (c : Chan) (s : State) : closeSwitch r w c s
    = moveIfRadar r c (if c = w.target
        then raise .switchDone (radioCode r) ((placeRadio r c s).setRecord r (changedRecord s.heard (s.record r)))
        else raise .channelMismatch (radioCode r)
          (raise .switchDone (radioCode r) ((placeRadio r c s).setRecord r (changedRecord s.heard (s.record r))))) := by
  unfold closeSwitch
  split <;> rfl

end Changes

/-! ## STATUS and SWITCHED -/

section Records

/-- R167, R176: the link a valid record leaves. -/
theorem State.tookRecord_link (s : State) (now : AT) (r : Radio) : (s.tookRecord now r).link r = { s.link r with
    timer := some (now + BitVec.ofNat 32 ((s.link r).limitMs * 1000)), lastValid := some now
    taken := min 65535 ((s.link r).taken + 1) } :=
  State.setLink_link (s.withNow now) r _

variable {s u : State} {now : AT} {r : Radio} {band b : Byte} {c cur : Chan}

theorem bandOfCode_eq_bandOf_iff : bandOfCode band = some (bandOf c) ↔ band.toNat = if c.val ≤ 12 then 0 else 1 := by
  have hval : bandOf c = if c.val ≤ 12 then .ghz24 else .ghz5 := by
    by_cases h : c.val ≤ 12
    · rw [bandOf_of_le_12 h, if_pos h]
    · rw [bandOf_of_13_le (by omega), if_neg h]
  rw [hval]
  unfold bandOfCode
  by_cases h : c.val ≤ 12 <;> simp only [h, if_true, if_false] <;> split <;> simp_all

theorem exec_status (h : s.listens r) :
    exec (.status now r band b) s = .next (statusChecked r band b false (s.tookRecord now r)) := by
  rw [exec, execStatus, radioEvent_of_listens h, h.2.2]

theorem exec_switched (h : s.listens r) :
    exec (.switched now r b) s = .next (withChan r b (s.tookRecord now r) (switchedTaken r)) := by
  rw [exec, execSwitched, radioEvent_of_listens h]

theorem statusChecked_refused {noticed : Bool} (h : 38 ≤ b.toNat) :
    statusChecked r band b noticed u = u.withLinkError r .badChannel :=
  withChan_refused h

theorem statusChecked_of_bad_band {noticed : Bool} (hc : c.val = b.toNat) (hband : band.toNat ≠ if c.val ≤ 12 then 0 else 1) :
    statusChecked r band b noticed u = u.withLinkError r .badBand :=
  (withChan_of_val hc).trans (if_neg fun h => hband (bandOfCode_eq_bandOf_iff.mp h))

theorem statusChecked_of_band {noticed : Bool} (hc : c.val = b.toNat) (hband : band.toNat = if c.val ≤ 12 then 0 else 1) :
    statusChecked r band b noticed u = statusTaken r c noticed u :=
  (withChan_of_val hc).trans (if_pos (bandOfCode_eq_bandOf_iff.mpr hband))

theorem statusTaken_of_unknown {m : HostMode} (h : (u.link r).chan = none) (hm : (u.gate r).mode = .host m) :
    statusTaken r c false u
      = u.setLink r { u.link r with chan := some c, sent := (u.link r).sent ++ [.gateNotice m] } := by
  have hanswer : answerMode ((placeRadio r c u).gate r) = m := by
    have hgate : (placeRadio r c u).gate r = u.gate r := rfl
    rw [hgate, answerMode, hm]
  rw [statusTaken, h]
  simp only [becomeKnown, hanswer]
  rw [if_neg (by decide), sendRadio, placeRadio, State.setLink_link]
  simp only [State.setLink, State.withLinks, Pair.set_set]

theorem statusTaken_of_here {noticed : Bool} (h : (u.link r).chan = some c) : statusTaken r c noticed u = u := by
  rw [statusTaken, h]
  exact if_pos rfl

theorem switchedTaken_of_unknown (h : (u.link r).chan = none) : switchedTaken r c u = u := by
  rw [switchedTaken, h]

variable {w : Switch} (h : (u.link r).chan = some cur)
include h

theorem statusTaken_of_switching (hc : cur ≠ c) (hw : (u.record r).inFlight = some w) :
    statusTaken r c false u = closeSwitch r w c u := by
  simp only [statusTaken, h, hw, if_neg (Ne.symm hc)]

theorem statusTaken_of_elsewhere (hc : cur ≠ c) (hw : (u.record r).inFlight = none) :
    statusTaken r c false u = changeOutside r c u := by
  simp only [statusTaken, h, hw, if_neg (Ne.symm hc)]

theorem switchedTaken_of_switching (hw : (u.record r).inFlight = some w) : switchedTaken r c u = closeSwitch r w c u := by
  simp only [switchedTaken, h, hw]

theorem switchedTaken_of_here (hc : cur = c) (hw : (u.record r).inFlight = none) : switchedTaken r c u = u := by
  simp only [switchedTaken, h, hw, if_pos hc.symm]

theorem switchedTaken_of_elsewhere (hc : cur ≠ c) (hw : (u.record r).inFlight = none) :
    switchedTaken r c u = changeOutside r c u := by
  simp only [switchedTaken, h, hw, if_neg (Ne.symm hc)]

end Records

/-- Settles O54: the two records' checks, then a close or an outside change, each of which arrives as `moveIfRadar_arrives`
says. -/
theorem statusAndSwitchedPlaceRadio : Obligations.StatusAndSwitchedPlaceRadio := by
  unfold Obligations.StatusAndSwitchedPlaceRadio
  intro now r band b s hl u
  rw [exec_status hl, exec_switched hl]
  refine ⟨fun hb => ⟨by rw [statusChecked_refused hb], by rw [withChan_refused hb]⟩, fun c hc => ?_⟩
  rw [withChan_of_val hc]
  intro placed x closed changed arrives
  have hchan : (u.link r).chan = (s.link r).chan := State.tookRecord_link_chan s now r r
  have hplaced : (placed.link r).chan = some c := congrArg Link.chan (State.setLink_link u r _)
  have hrecord : (placed.setRecord r x).record r = x := State.setRecord_record placed r x
  have hkept (w : Switch) : ((closed w).link r).chan = some c ∧ (closed w).record r = x
      ∧ ((closed w).chan c).barredUntil = (s.chan c).barredUntil ∧ (closed w).gate r = s.gate r ∧ (closed w).now = now := by
    by_cases hw : c = w.target
    · have heq : closed w = _ := if_pos hw
      rw [heq]
      exact ⟨hplaced, hrecord, rfl, rfl, rfl⟩
    · have heq : closed w = _ := if_neg hw
      rw [heq]
      exact ⟨hplaced, hrecord, rfl, rfl, rfl⟩
  have hclosed (w : Switch) : ArrivesAt r c x (closed w) (closeSwitch r w c u) := by
    obtain ⟨hat, hrec, -⟩ := hkept w
    rw [closeSwitch_eq]
    exact moveIfRadar_arrives hat hrec rfl rfl
  have hchanged : ArrivesAt r c x changed (changeOutside r c u) :=
    moveIfRadar_arrives hplaced (State.setRecord_record (raise .channelMismatch (radioCode r) placed) r x) rfl rfl
  have harrives {i : Instr} {v w : State} (hexec : exec i s = .next w) (h : ArrivesAt r c x v w)
      (hbar : (v.chan c).barredUntil = (s.chan c).barredUntil) (hgate : v.gate r = s.gate r) (hnow : v.now = now) :
      arrives i v := by
    obtain ⟨hstay, hmove⟩ := h
    rw [hbar, hgate] at hstay hmove
    rw [hnow] at hmove
    refine ⟨fun hno => hexec.trans (congrArg _ (hstay hno)), fun hb hs => ?_⟩
    obtain ⟨hnone, hsome⟩ := hmove hb hs
    exact ⟨fun h => hexec.trans (congrArg _ (hnone h)), fun best h => hexec.trans (congrArg _ (hsome best h))⟩
  have hswitched {w : State} (hw : switchedTaken r c u = w) : exec (.switched now r b) s = .next w := by
    rw [exec_switched hl, withChan_of_val hc, hw]
  refine ⟨fun hband => by rw [statusChecked_of_bad_band hc hband], fun hband => ?_, fun h => ?_, fun cur hcur =>
    ⟨fun w hw => ?_, fun hw hhere => ?_, fun hw helse => ?_⟩⟩
  · have hstatus {w : State} (hw : statusTaken r c false u = w) : exec (.status now r band b) s = .next w := by
      rw [exec_status hl, statusChecked_of_band hc hband, hw]
    refine ⟨fun m h hm => ?_, fun h => ?_, fun cur hcur helse => ⟨fun w hw => ?_, fun hw => ?_⟩⟩
    · rw [statusChecked_of_band hc hband, statusTaken_of_unknown (hchan.trans h) hm]
      have hsent : (u.link r).sent = (s.link r).sent := (congrArg Link.sent (State.tookRecord_link s now r)).trans rfl
      rw [hsent]
    · rw [statusChecked_of_band hc hband, statusTaken_of_here (hchan.trans h)]
    · obtain ⟨-, -, hbar, hgate, hnow⟩ := hkept w
      exact harrives (hstatus (statusTaken_of_switching (hchan.trans hcur) helse hw)) (hclosed w) hbar hgate hnow
    · exact harrives (hstatus (statusTaken_of_elsewhere (hchan.trans hcur) helse hw)) hchanged rfl rfl rfl
  · rw [switchedTaken_of_unknown (hchan.trans h)]
  · obtain ⟨-, -, hbar, hgate, hnow⟩ := hkept w
    exact harrives (hswitched (switchedTaken_of_switching (hchan.trans hcur) hw)) (hclosed w) hbar hgate hnow
  · rw [switchedTaken_of_here (hchan.trans hcur) hhere hw]
  · exact harrives (hswitched (switchedTaken_of_elsewhere (hchan.trans hcur) helse hw)) hchanged rfl rfl rfl

end Sys2Proof.Machine
end

section
/-! The airtime gates (chapter 7): their commands, the close and the ageing of grants, and the issue of a grant. -/

namespace Sys2Proof.Machine

set_option Elab.async false

/-! ## SET GATE, SET EXCLUSION and SET LATENCY (R156, R160, R135) -/

section Commands

variable {s : State} {now : AT} {r : Radio} {m old : HostMode} {a b c : Byte} {rest : List Byte}

theorem hostModeOf_eq_none (h : 4 ≤ b.toNat) : hostModeOf b = none := by
  unfold hostModeOf
  split <;> first | omega | rfl

theorem hostModeOf_of_code (h : m.code = b.toNat) : hostModeOf b = some m := by
  unfold hostModeOf
  rw [← h]
  cases m <;> rfl

theorem setGateMode_of_safe (h : (s.gate r).mode = .safe old) :
    setGateMode r m s = s.setGate r { s.gate r with mode := .safe m } := by
  rw [setGateMode, h]

theorem setGateMode_of_same (h : (s.gate r).mode = .host m) : setGateMode r m s = s := by
  rw [setGateMode, h]
  exact if_pos rfl

theorem setGateMode_of_other (h : (s.gate r).mode = .host old) (hm : old ≠ m) :
    setGateMode r m s = (s.setGate r { s.gate r with mode := .host m }).setLink r
      { s.link r with sent := (s.link r).sent ++ [.gateNotice m] } := by
  rw [setGateMode, h]
  exact if_neg hm

theorem exec_setGate_refused (h : s.inHandIs 0x70 (a :: b :: rest)) (hbad : 2 ≤ a.toNat ∨ 4 ≤ b.toNat) :
    exec (.setGate now) s = .next (s.answered now 0x70 .badArgument []) := by
  rw [exec, execSetGate]
  refine handle_of_refuse h rfl (by simp) ?_
  rw [arg_cons_zero, arg_cons_succ, arg_cons_zero]
  rcases hbad with hbad | hbad
  · rw [radioOf_eq_none hbad]
  · rw [hostModeOf_eq_none hbad]
    cases radioOf a <;> rfl

theorem exec_setGate (h : s.inHandIs 0x70 (a :: b :: rest)) (ha : radioCode r = a.toNat) (hb : m.code = b.toNat) {u : State}
    (hu : setGateMode r m (s.withNow now) = u) : exec (.setGate now) s = .next (u.withHost { u.host with
      inHand := none, response := some ⟨.ok, 0x70, []⟩ }) := by
  rw [exec, execSetGate]
  refine handle_of_okay h rfl (by simp) ?_
  rw [arg_cons_zero, arg_cons_succ, arg_cons_zero, radioOf_of_code ha.symm, hostModeOf_of_code hb, ← hu]

theorem exec_setExclusion_refused (h : s.inHandIs 0x71 (a :: rest)) (ha : 2 ≤ a.toNat) :
    exec (.setExclusion now) s = .next (s.answered now 0x71 .badArgument []) := by
  rw [exec, execSetExclusion]
  exact handle_of_refuse h rfl (by simp) (by rw [arg_cons_zero, flagOf_eq_none ha])

theorem exec_setExclusion (h : s.inHandIs 0x71 (a :: rest)) {on : Bool} (ha : a = if on = true then 1 else 0) :
    exec (.setExclusion now) s = .next { s.answered now 0x71 .ok [a] with agt := { s.agt with exclusion := on } } := by
  rw [exec, execSetExclusion]
  refine (handle_of_okay (u := (s.withNow now).withAgt { s.agt with exclusion := on }) (out := [a]) h rfl (by simp)
    ?_).trans rfl
  rw [arg_cons_zero, flagOf_of_code ha, ← bFlag_of_code ha]
  rfl

theorem exec_setLatency_refused (h : s.inHandIs 0x72 (a :: b :: c :: rest)) (ha : 2 ≤ a.toNat) :
    exec (.setLatency now) s = .next (s.answered now 0x72 .badArgument []) := by
  rw [exec, execSetLatency]
  exact handle_of_refuse h rfl (by simp) (by rw [arg_cons_zero, radioOf_eq_none ha])

theorem exec_setLatency (h : s.inHandIs 0x72 (a :: b :: c :: rest)) (ha : radioCode r = a.toNat) {n : Nat}
    (hn : n = min 200 (256 * b.toNat + c.toNat)) :
    exec (.setLatency now) s = .next ((s.answered now 0x72 .ok (b2 n)).setGate r { s.gate r with latency := n }) := by
  rw [exec, execSetLatency]
  refine (handle_of_okay (u := (s.withNow now).setGate r { s.gate r with latency := n }) (out := b2 n) h rfl (by simp)
    ?_).trans rfl
  have hbc := arg2_drop (a :: b :: c :: rest) b c 1 rfl rfl
  rw [arg_cons_zero, radioOf_of_code ha.symm]
  simp only [hbc, clampNat, Nat.zero_max, ← hn]
  rfl

end Commands

/-- Settles O59: SET GATE by the mode it finds, and the two settings. -/
theorem gateCommands : Obligations.GateCommands := by
  unfold Obligations.GateCommands
  intro now s
  refine ⟨fun a b rest h => ⟨exec_setGate_refused h, fun r m ha hb => ?_⟩,
    fun a rest h => ⟨exec_setExclusion_refused h, fun on ha => exec_setExclusion h ha⟩,
    fun a b c rest h => ⟨exec_setLatency_refused h, fun r ha => exec_setLatency h ha rfl⟩⟩
  refine ⟨fun before hm => ?_, fun hm => ?_, fun old hm hne => ?_⟩
  · exact (exec_setGate h ha hb (setGateMode_of_safe (by exact hm))).trans rfl
  · exact (exec_setGate h ha hb (setGateMode_of_same (by exact hm))).trans rfl
  · exact (exec_setGate h ha hb (setGateMode_of_other (by exact hm) hne)).trans rfl

/-! ## The close of a grant (R151 to R153) -/

section Close

variable {s : State} {now : AT} {r : Radio} {g : Grant}

theorem closeEntry_of_some (stop : AT) :
    closeEntry r (some stop) = fun e => if e.live = true ∧ e.radio = r then { e with stop, live := false } else e := by
  funext e
  simp only [closeEntry, Bool.and_eq_true, decide_eq_true_eq, Option.getD_some]

theorem closeEntry_of_none :
    closeEntry r none = fun e => if e.live = true ∧ e.radio = r then { e with live := false } else e := by
  funext e
  simp only [closeEntry, Bool.and_eq_true, decide_eq_true_eq, Option.getD_none]

theorem closeGrant_recent (stop : Option AT) (b : Band) :
    (closeGrant r stop s).recent b = (s.recent b).map (closeEntry r stop) := by
  rw [closeGrant, State.setGate_recent]
  cases b <;> rfl

theorem closeGrant_gate (stop : Option AT) : (closeGrant r stop s).gate r = { s.gate r with slot := none } :=
  State.setGate_gate _ _ _

theorem closeGrant_gate_other (stop : Option AT) : (closeGrant r stop s).gate (otherRadio r) = s.gate (otherRadio r) :=
  State.setGate_gate_ne _ _ (otherRadio_ne r)

theorem exec_airEnd {tag : Byte} {used : BitVec 16} (hl : s.listens r) :
    exec (.airEnd now r tag used) s = .next (airEnd r tag used.toNat (s.tookRecord now r)) := by
  rw [exec, execAirEnd, radioEvent_of_listens hl]

theorem airEnd_of_tag {tag : Byte} {used : Nat} (hg : (s.gate r).slot = some g) (ht : g.tag = tag) :
    airEnd r tag used s = closeGrant r (some (g.start + BitVec.ofNat 32 (min used g.length))) s := by
  rw [airEnd, hg]
  exact if_pos ht

theorem airEnd_of_stray {tag : Byte} {used : Nat} (h : ∀ g, (s.gate r).slot = some g → g.tag ≠ tag) :
    airEnd r tag used s = raise .strayEnd (radioCode r) s := by
  unfold airEnd
  split
  · rfl
  · next g hg => exact if_neg (h g hg)

theorem exec_grantExpiry_of_none (hrun : s.phase = .running) (hg : (s.gate r).slot = none) :
    exec (.grantExpiry now r) s = .next (s.withNow now) := by
  have hg' : ((s.withNow now).gate r).slot = none := hg
  rw [exec, execGrantExpiry, event_running hrun]
  simp only [hg']

theorem exec_grantExpiry (hrun : s.phase = .running) (hg : (s.gate r).slot = some g) :
    exec (.grantExpiry now r) s = .next (if reached g.expiry now = true
      then raise .grantExpired (radioCode r) (closeGrant r none (s.withNow now)) else s.withNow now) := by
  have hg' : ((s.withNow now).gate r).slot = some g := hg
  rw [exec, execGrantExpiry, event_running hrun]
  simp only [hg']
  rfl

end Close

/-! ## Entries that leave a list (R136, R137) -/

section Unlink

variable {s : State} {r : Radio} {b : Band}

/-- R137: a slot whose grant's list entry is absent. -/
def withoutEntry (x : Gate) : Gate := { x with slot := x.slot.map fun g => { g with listEntry := false } }

theorem withoutEntry_withoutEntry (x : Gate) : withoutEntry (withoutEntry x) = withoutEntry x := by
  obtain ⟨mode, lat, slot⟩ := x
  cases slot <;> rfl

theorem unlinkRemoved_recent (x : GrantEntry) : (unlinkRemoved x s).recent b = s.recent b := by
  unfold unlinkRemoved unlinkSlot
  split
  · exact State.setGate_recent _ _ _ _
  · rfl

theorem unlinkRemoved_exclusion (x : GrantEntry) : (unlinkRemoved x s).agt.exclusion = s.agt.exclusion := by
  unfold unlinkRemoved unlinkSlot
  split <;> rfl

theorem unlinkRemoved_gate_of_live {x : GrantEntry} (h : x.live = true ∧ x.radio = r) :
    (unlinkRemoved x s).gate r = withoutEntry (s.gate r) := by
  obtain ⟨hlive, rfl⟩ := h
  rw [unlinkRemoved, if_pos hlive]
  exact State.setGate_gate _ _ _

theorem unlinkRemoved_gate_of_not {x : GrantEntry} (h : ¬ (x.live = true ∧ x.radio = r)) :
    (unlinkRemoved x s).gate r = s.gate r := by
  unfold unlinkRemoved
  split
  · next hlive => exact State.setGate_gate_ne _ _ fun hr => h ⟨hlive, hr.symm⟩
  · rfl

theorem foldr_unlinkRemoved_recent (l : List GrantEntry) : (l.foldr unlinkRemoved s).recent b = s.recent b := by
  induction l with
  | nil => rfl
  | cons x l ih => rw [List.foldr_cons, unlinkRemoved_recent, ih]

/-- R137: the radio's slot loses its entry once one of its live entries leaves. -/
theorem foldr_unlinkRemoved_gate (l : List GrantEntry) : (l.foldr unlinkRemoved s).gate r
    = if ∃ e ∈ l, e.live = true ∧ e.radio = r then withoutEntry (s.gate r) else s.gate r := by
  induction l with
  | nil => simp
  | cons x l ih =>
    rw [List.foldr_cons]
    by_cases hx : x.live = true ∧ x.radio = r
    · rw [unlinkRemoved_gate_of_live hx, ih, if_pos (⟨x, List.mem_cons_self, hx⟩ : ∃ e ∈ x :: l, e.live = true ∧ e.radio = r)]
      split
      · exact withoutEntry_withoutEntry _
      · rfl
    · rw [unlinkRemoved_gate_of_not hx, ih]
      simp [hx]

theorem exec_grantEntryAgeOut {now : AT} (hrun : s.phase = .running) : exec (.grantEntryAgeOut now b) s
    = .next (((s.recent b).filter (aged now)).foldr unlinkRemoved
        ((s.withNow now).setRecent b ((s.recent b).filter fun e => !aged now e))) := by
  rw [exec, execGrantEntryAgeOut, event_running hrun]
  cases b <;> rfl

theorem not_aged_eq (now : AT) : (fun e : GrantEntry => !aged now e) = fun e => decide (tdiff now e.stop ≤ 200000) := by
  funext e
  rw [aged, ← decide_not, decide_eq_decide]
  exact not_lt

end Unlink

/-- Settles O58: AIR END and expiry close a grant as `closeGrant` does, the ageing row drops what is aged. -/
theorem grantsCloseAndAgeOut : Obligations.GrantsCloseAndAgeOut := by
  unfold Obligations.GrantsCloseAndAgeOut
  intro now r s ended
  refine ⟨fun tag used hl => ?_, fun hrun => ⟨fun g hg => ⟨fun hge => ?_, fun hlt => ?_⟩,
    exec_grantExpiry_of_none hrun, fun b => ?_⟩⟩
  · rw [exec_airEnd hl]
    intro u
    refine ⟨fun g hg ht => ?_, fun hstray => by rw [airEnd_of_stray (by exact hstray)]⟩
    rw [airEnd_of_tag (s := u) hg ht]
    refine ⟨_, rfl, ⟨closeGrant_gate _, closeGrant_gate_other _, fun b => ?_, rfl, ?_⟩, rfl⟩
    · rw [closeGrant_recent, closeEntry_of_some]
      cases b <;> rfl
    · exact (closeGrant_touches r _ u).mono
  · have hexec := exec_grantExpiry (now := now) hrun hg
    rw [if_pos (reached_of_le hge)] at hexec
    refine ⟨_, hexec, closeGrant_gate (s := s.withNow now) none, closeGrant_gate_other (s := s.withNow now) none, fun b => ?_,
      raise_events_congr rfl rfl, exec_touches hexec⟩
    refine (closeGrant_recent (s := s.withNow now) none b).trans ?_
    rw [closeEntry_of_none]
    cases b <;> rfl
  · rw [exec_grantExpiry hrun hg, if_neg (not_reached_of_lt hlt)]
  · refine ⟨_, exec_grantEntryAgeOut hrun, ?_, fun b' hb' => ?_, fun haged => ?_, fun hkept => ?_⟩
    · rw [foldr_unlinkRemoved_recent, State.setRecent_recent, not_aged_eq]
    · rw [foldr_unlinkRemoved_recent, State.setRecent_recent_ne _ _ hb']
      cases b' <;> rfl
    · obtain ⟨e, he, hlive, hr, hage⟩ := haged
      rw [foldr_unlinkRemoved_gate, if_pos ⟨e, List.mem_filter.mpr ⟨he, decide_eq_true hage⟩, hlive, hr⟩,
        State.setRecent_gate]
      rfl
    · rw [foldr_unlinkRemoved_gate, if_neg, State.setRecent_gate]
      · rfl
      · rintro ⟨e, he, hlive, hr⟩
        obtain ⟨he, hage⟩ := List.mem_filter.mp he
        exact absurd (of_decide_eq_true hage) (not_lt.mpr (hkept e he hlive hr))

end Sys2Proof.Machine
end

section
/-! The answer to an airtime request (chapter 7): what it is refused with before it is computed, and the issue of a grant. -/

namespace Sys2Proof.Machine

set_option Elab.async false

/-! ## What shapes a request (R65, R66, R69, R142) -/

section Shapes

theorem protecting_iff {policy : Policy} {q : ReqClass} {o : Oven} : protecting policy q o = true
    ↔ o.phase = .locked ∨ ((∃ b, o.phase = .holdover b) ∧ policy = .avoid ∧ q = .normal) := by
  unfold protecting
  cases hp : o.phase <;> simp

theorem covers_iff {o : Oven} {c : Chan} : covers o c = true ↔ o.lo ≤ c ∧ c ≤ o.hi := by
  simp only [covers, Bool.and_eq_true, decide_eq_true_eq, Fin.le_def]

theorem effectiveGuard_of_search {set : TrackSettings} {o : Oven} {b : AT} (h : o.phase = .search b) :
    effectiveGuard set o = set.searchGuard := by
  rw [effectiveGuard, h]

theorem effectiveGuard_of_not_search {set : TrackSettings} {o : Oven} (h : ∀ b, o.phase ≠ .search b) :
    effectiveGuard set o = o.guardUs := by
  unfold effectiveGuard
  split
  · next b hb => exact absurd hb (h b)
  · rfl
  · rfl

theorem gateServes_iff {g : Gate} : gateServes g = true ↔ ∃ m, g.mode = .host m ∧ m ≠ .gateOff := by
  unfold gateServes
  cases hm : g.mode <;> simp

theorem exclusionApplies_iff {s : State} {r : Radio} : exclusionApplies s r = true ↔ s.agt.exclusion = true
    ∧ ∃ c d, (s.link r).chan = some c ∧ (s.link (otherRadio r)).chan = some d ∧ bandOf c = bandOf d := by
  unfold exclusionApplies State.link
  cases (s.links.get r).chan <;> cases (s.links.get (otherRadio r)).chan <;> simp

theorem exclusionApplies_tookRecord (s : State) (now : AT) (q r : Radio) :
    exclusionApplies (s.tookRecord now q) r = exclusionApplies s r := by
  rw [Bool.eq_iff_iff, exclusionApplies_iff, exclusionApplies_iff, State.tookRecord_link_chan, State.tookRecord_link_chan]
  rfl

end Shapes

/-! ## The checks of a request (R139) -/

section Checks

variable {s : State} {r : Radio} {tag cls : Byte} {len minLen maxWait : Nat} {c : Chan}

theorem airRequest_of_unknown (h : (s.link r).chan = none) :
    airRequest r tag len minLen maxWait cls s = sendRadio r (.refuse tag .unknown 0) s := by
  rw [airRequest, h]

theorem exec_airRequest {now : AT} {len minLen maxWait : BitVec 16} (h : s.listens r) :
    exec (.airRequest now r tag len minLen maxWait cls) s
      = .next (airRequest r tag len.toNat minLen.toNat maxWait.toNat cls (s.tookRecord now r)) := by
  rw [exec, execAirRequest, radioEvent_of_listens h]

variable (hc : (s.link r).chan = some c)
include hc

theorem airRequest_of_off (h : (s.gate r).mode = .host .gateOff) :
    airRequest r tag len minLen maxWait cls s = sendRadio r (.refuse tag .off 0) s := by
  simp only [airRequest, hc, answerMode, h]

theorem airRequest_of_barred (h : (s.gate r).mode = .host .gateBarred) :
    airRequest r tag len minLen maxWait cls s = sendRadio r (.refuse tag .barred 0) s := by
  simp only [airRequest, hc, answerMode, h]

theorem airRequest_of_held (h : (s.gate r).mode = .host .gateHeld) :
    airRequest r tag len minLen maxWait cls s = sendRadio r (.wait tag 1000) s := by
  simp only [airRequest, hc, answerMode, h]
  rfl

theorem airRequest_of_busy (h : (s.gate r).mode = .host .gateOpen) (hslot : (s.gate r).slot ≠ none) :
    airRequest r tag len minLen maxWait cls s = sendRadio r (.refuse tag .busy 0) s := by
  simp only [airRequest, hc, answerMode, h]
  exact if_pos (Option.isSome_iff_ne_none.mpr hslot)

/-- A request that passes the checks is computed. -/
theorem airRequest_of_open (h : (s.gate r).mode = .host .gateOpen) (hslot : (s.gate r).slot = none) :
    airRequest r tag len minLen maxWait cls s
      = computeRequest r c (clampRequest (s.now + BitVec.ofNat 32 (s.gate r).latency) tag len minLen maxWait cls) s := by
  simp only [airRequest, hc, answerMode, h, hslot]
  rfl

end Checks

/-! ## The issue of a grant (R136, R146) -/

section Issue

variable {s : State} {b : Band} {e : GrantEntry}

/-- R136: an entry stands after those of an equal start. -/
theorem placeEntry_split (e : GrantEntry) (l : List GrantEntry) : ∃ before after, l = before ++ after
    ∧ placeEntry e l = before ++ e :: after
    ∧ (∀ x ∈ before, tdiff x.start e.start ≤ 0) ∧ ∀ x, after.head? = some x → 0 < tdiff x.start e.start := by
  induction l with
  | nil => exact ⟨[], [], rfl, rfl, by simp, by simp⟩
  | cons x l ih =>
    by_cases hx : 0 < tdiff x.start e.start
    · refine ⟨[], x :: l, rfl, if_pos hx, by simp, fun y hy => ?_⟩
      cases hy
      exact hx
    · obtain ⟨before, after, hl, hplace, hbefore, hafter⟩ := ih
      refine ⟨x :: before, after, by rw [hl]; rfl, (if_neg hx).trans (by rw [hplace]; rfl), ?_, hafter⟩
      exact List.forall_mem_cons.mpr ⟨not_lt.mp hx, hbefore⟩

/-- R136: the list of the band after an entry is made. -/
theorem makeGrantEntry_recent : (makeGrantEntry b e s).recent b
    = placeEntry e (if 16 ≤ (s.recent b).length then (s.recent b).tail else s.recent b) := by
  unfold makeGrantEntry
  split
  · next hnil =>
    rw [State.setRecent_recent, hnil]
    rfl
  · next x rest hcons =>
    split
    · next hfull =>
      have hfull : 16 ≤ (s.recent b).length := hfull
      rw [unlinkRemoved_recent, State.setRecent_recent, if_pos hfull, hcons]
      rfl
    · next hroom =>
      have hroom : ¬ 16 ≤ (s.recent b).length := hroom
      rw [State.setRecent_recent, if_neg hroom]

theorem makeGrantEntry_recent_ne {b' : Band} (hb : b' ≠ b) : (makeGrantEntry b e s).recent b' = s.recent b' := by
  unfold makeGrantEntry
  split
  · exact State.setRecent_recent_ne _ _ hb
  · split
    · rw [unlinkRemoved_recent, State.setRecent_recent_ne _ _ hb]
    · exact State.setRecent_recent_ne _ _ hb

theorem makeGrantEntry_exclusion : (makeGrantEntry b e s).agt.exclusion = s.agt.exclusion := by
  have hset (l : List GrantEntry) : (s.setRecent b l).agt.exclusion = s.agt.exclusion := by cases b <;> rfl
  unfold makeGrantEntry
  split
  · exact hset _
  · split
    · rw [unlinkRemoved_exclusion, hset]
    · exact hset _

/-- R136: a full list loses this entry first. -/
def losesFirst (s : State) (b : Band) (x : GrantEntry) : Prop := 16 ≤ (s.recent b).length ∧ (s.recent b).head? = some x

theorem makeGrantEntry_gate_of_lost {x : GrantEntry} {r : Radio} (h : losesFirst s b x) (hx : x.live = true ∧ x.radio = r) :
    (makeGrantEntry b e s).gate r = withoutEntry (s.gate r) := by
  obtain ⟨hfull, hhead⟩ := h
  unfold makeGrantEntry
  split
  · next hnil =>
    rw [hnil] at hhead
    cases hhead
  · next y rest hcons =>
    rw [hcons] at hhead
    cases hhead
    have hfull : Config.listSize ≤ (s.recent b).length := hfull
    rw [if_pos hfull, unlinkRemoved_gate_of_live hx, State.setRecent_gate]

theorem makeGrantEntry_gate_of_not_lost {r : Radio} (h : ∀ x, losesFirst s b x → ¬ (x.live = true ∧ x.radio = r)) :
    (makeGrantEntry b e s).gate r = s.gate r := by
  unfold makeGrantEntry
  split
  · exact State.setRecent_gate _ _ _ _
  · next y rest hcons =>
    split
    · next hfull =>
      rw [unlinkRemoved_gate_of_not (h y ⟨hfull, by rw [hcons]; rfl⟩), State.setRecent_gate]
    · exact State.setRecent_gate _ _ _ _

theorem makeGrantEntry_gate_with_slot {r : Radio} (x : Option Grant) :
    ({ (makeGrantEntry b e s).gate r with slot := x } : Gate) = { s.gate r with slot := x } := by
  by_cases h : ∃ y, losesFirst s b y ∧ y.live = true ∧ y.radio = r
  · obtain ⟨y, hlost, hy⟩ := h
    rw [makeGrantEntry_gate_of_lost hlost hy]
    rfl
  · rw [makeGrantEntry_gate_of_not_lost fun y hlost hy => h ⟨y, hlost, hy⟩]

/-- R146: the effect of an issue. -/
theorem issue_issues (r : Radio) (b : Band) (q : Request) (w n : Nat) (short : Bool) (u : State) :
    u.issues r b w ⟨q.tag, q.cls, q.t0 + BitVec.ofNat 32 w, n, short,
      q.t0 + BitVec.ofNat 32 w + BitVec.ofNat 32 (n + 500), true⟩ (issue r b q w n short u) := by
  generalize he : (⟨r, q.t0 + BitVec.ofNat 32 w, q.t0 + BitVec.ofNat 32 w + BitVec.ofNat 32 n, true⟩ : GrantEntry) = e
  generalize hm : makeGrantEntry b e u = v
  generalize hg : (⟨q.tag, q.cls, q.t0 + BitVec.ofNat 32 w, n, short,
    q.t0 + BitVec.ofNat 32 w + BitVec.ofNat 32 (n + 500), true⟩ : Grant) = g
  have hissue : issue r b q w n short u = sendRadio r (if short = true then .short q.tag w n else .grant q.tag w n)
      (v.setGate r { v.gate r with slot := some g }) := by
    rw [← hm, ← he, ← hg]
    rfl
  have hother : (issue r b q w n short u).gate (otherRadio r) = v.gate (otherRadio r) := by
    rw [hissue]
    exact State.setGate_gate_ne _ _ (otherRadio_ne r)
  have hlinks : v.links = u.links := hm ▸ ((makeGrantEntry_touches b e u) .links (by decide)).symm
  have hslot : ({ v.gate r with slot := some g } : Gate) = { u.gate r with slot := some g } :=
    hm ▸ makeGrantEntry_gate_with_slot (some g)
  have hrecent (b' : Band) : (issue r b q w n short u).recent b' = v.recent b' := by
    rw [hissue]
    exact State.setGate_recent _ _ _ _
  obtain ⟨before, after, hlist, hplace, hbefore, hafter⟩ :=
    placeEntry_split e (if 16 ≤ (u.recent b).length then (u.recent b).tail else u.recent b)
  have hstart : g.start = e.start := by rw [← hg, ← he]
  refine ⟨?_, ?_, ⟨before, after, hlist, ?_, ?_, ?_⟩, fun b' hb' => ?_, fun x hx => ?_, fun hnone => ?_, ?_,
    (issue_touches r b q w n short u).mono⟩
  · rw [hissue, ← hslot]
    exact State.setGate_gate v r _
  · rw [hissue, ← hg]
    exact congrArg (fun l : Pair Link => l.set r { l.get r with
      sent := (l.get r).sent ++ [if short = true then .short q.tag w n else .grant q.tag w n] }) hlinks
  · rw [hrecent, ← hm, makeGrantEntry_recent, hplace, ← he, ← hg]
  · exact hstart ▸ hbefore
  · exact hstart ▸ hafter
  · rw [hrecent, ← hm, makeGrantEntry_recent_ne hb']
  · obtain ⟨hfull, hhead, hlive, hr⟩ := hx
    rw [hother, ← hm]
    exact makeGrantEntry_gate_of_lost ⟨hfull, hhead⟩ ⟨hlive, hr⟩
  · rw [hother, ← hm]
    exact makeGrantEntry_gate_of_not_lost fun x hx hlive => hnone x ⟨hx.1, hx.2, hlive.1, hlive.2⟩
  · have hkeep : v.agt.exclusion = u.agt.exclusion := hm ▸ makeGrantEntry_exclusion
    rw [hissue]
    exact hkeep

end Issue

/-! ## A request that nothing hinders -/

section Free

variable {s : State} {r : Radio} {c : Chan} {q : Request}

theorem shapingOvens_of_none (h : ∀ k o, (s.tracker k).oven = some o → protecting s.otk.settings.policy q.cls o = true →
    covers o c = false) : shapingOvens s q.cls c = [] := by
  have hone (k : TrackerId) : contributes s q.cls c k = none := by
    unfold contributes
    split
    · rfl
    · next o ho =>
      refine if_neg fun hboth => ?_
      obtain ⟨hp, hcov⟩ := (Bool.and_eq_true _ _ ▸ hboth : protecting s.otk.settings.policy q.cls o = true ∧ covers o c = true)
      rw [h k o ho hp] at hcov
      cases hcov
  unfold shapingOvens
  split
  · exact List.filterMap_eq_nil_iff.mpr fun k _ => hone k
  · rfl

theorem exclusionInterval_of_none (t0 : AT) (h : exclusionApplies s r = false ∨ (s.gate (otherRadio r)).slot = none) :
    exclusionInterval s r t0 = [] := by
  unfold exclusionInterval
  rcases h with h | h
  · rw [if_neg (by rw [h]; decide)]
  · rw [h]
    exact ite_self _

theorem answerOf_nil (bound : Option Nat) (q : Request) : answerOf [] bound q = .grant 0 q.length := by
  have hscan : scanA [] q.length q.maxWait (0 + 1) 0 = (0, true) := by
    rw [scanA, if_neg (by omega)]
    rfl
  simp only [answerOf, List.length_nil, hscan]
  rfl

theorem computeRequest_of_free (hshape : shapingOvens s q.cls c = []) (hexcl : exclusionInterval s r q.t0 = []) :
    computeRequest r c q s = issue r (bandOf c) q 0 q.length false s := by
  have hblock : blockingSet s r c q = [] := by
    rw [blockingSet, hshape, hexcl]
    rfl
  rw [computeRequest, hblock, answerOf_nil]

end Free

theorem issue_link {s : State} {r : Radio} {b : Band} {q : Request} {w n : Nat} :
    (issue r b q w n false s).link r = { s.link r with sent := (s.link r).sent ++ [.grant q.tag w n] } := by
  obtain ⟨-, hlinks, -⟩ := issue_issues r b q w n false s
  exact (congrArg (Pair.get · r) hlinks).trans (State.setLink_link s r _)

/-- Settles O56: the conditions as equivalences, the refusals in order, then the request that is granted at once. -/
theorem airRequestAnswered : Obligations.AirRequestAnswered := by
  unfold Obligations.AirRequestAnswered
  refine ⟨fun set policy q o c => ⟨protecting_iff, covers_iff, rfl, rfl, fun b => effectiveGuard_of_search,
    effectiveGuard_of_not_search⟩, fun g => gateServes_iff, fun s r => exclusionApplies_iff, ?_⟩
  intro now r tag len minLen maxWait cls s hl u run
  have hrun : run = .next (airRequest r tag len.toNat minLen.toNat maxWait.toNat cls u) := exec_airRequest hl
  have hchan : (u.link r).chan = (s.link r).chan := State.tookRecord_link_chan s now r r
  rw [hrun]
  refine ⟨fun h => by rw [airRequest_of_unknown (hchan.trans h)], fun c hc => ?_⟩
  replace hc := hchan.trans hc
  refine ⟨fun h => ?_, fun h => ?_, fun h => ?_, fun h => ⟨fun hslot => ?_, fun hslot hexcl => ?_⟩⟩
  · rw [airRequest_of_off hc h]
  · rw [airRequest_of_barred hc h]
  · rw [airRequest_of_held hc h]
  · rw [airRequest_of_busy hc h hslot]
  · intro q hshape n start
    have hexcl' : exclusionApplies u r = false ∨ (u.gate (otherRadio r)).slot = none := by
      rw [exclusionApplies_tookRecord]
      exact hexcl
    generalize hx : clampRequest start tag len.toNat minLen.toNat maxWait.toNat cls = x
    have hfree := computeRequest_of_free (s := u) (r := r) (c := c) (q := x)
      (shapingOvens_of_none (by rw [← hx]; exact hshape)) (exclusionInterval_of_none _ hexcl')
    have hopen := airRequest_of_open (tag := tag) (cls := cls) (len := len.toNat) (minLen := minLen.toNat)
      (maxWait := maxWait.toNat) hc h hslot
    have hissues : u.issues r (bandOf c) 0 ⟨tag, q, start + BitVec.ofNat 32 0, n, false,
        start + BitVec.ofNat 32 0 + BitVec.ofNat 32 (n + 500), true⟩ (issue r (bandOf c) x 0 n false u) :=
      hx ▸ issue_issues r (bandOf c) (clampRequest start tag len.toNat minLen.toNat maxWait.toNat cls) 0 n false u
    have hzero : start + BitVec.ofNat 32 0 = start := BitVec.add_zero start
    rw [hzero] at hissues
    have hlength : x.length = n := by rw [← hx]; rfl
    have hsent : (u.link r).sent = (s.link r).sent := (congrArg Link.sent (State.tookRecord_link s now r)).trans rfl
    refine ⟨issue r (bandOf c) x 0 n false u, ?_, ?_, hissues⟩
    · rw [hopen]
      exact congrArg _ ((congrArg (computeRequest r c · u) hx).trans (hlength ▸ hfree))
    · rw [issue_link, hsent, ← hx]
      rfl

end Sys2Proof.Machine
end

section
/-! The radio links (chapter 8): framing errors, silence and its limit, and the first valid record of a silent radio. -/

namespace Sys2Proof.Machine

set_option Elab.async false

/-! ## Framing (R166, R183) -/

section Framing

variable {s : State} {now : AT} {r : Radio} {type len : Byte}

theorem framingError_of_unknown (h : type = 0 ∨ 6 < type.toNat) : framingError type len = some .unknownType := by
  have hnone : radioRecordLength type = none := by
    unfold radioRecordLength
    rcases h with rfl | h
    · rfl
    · split <;> first | omega | rfl
  rw [framingError, hnone]

theorem framingError_of_length {n m : Nat} (hrow : (n, m) ∈ [(1, 2), (2, 8), (3, 3), (4, 10), (5, 1), (6, 1)])
    (htype : type.toNat = n) (hlen : len.toNat ≠ m) : framingError type len = some .wrongLength := by
  have hsome : radioRecordLength type = some m := by
    unfold radioRecordLength
    simp only [List.mem_cons, Prod.mk.injEq, List.not_mem_nil, or_false] at hrow
    rcases hrow with ⟨rfl, rfl⟩ | ⟨rfl, rfl⟩ | ⟨rfl, rfl⟩ | ⟨rfl, rfl⟩ | ⟨rfl, rfl⟩ | ⟨rfl, rfl⟩ <;> simp only [htype]
  rw [framingError, hsome]
  exact if_neg hlen

variable (hrun : s.phase = .running)
include hrun

theorem exec_linkFramingError_of_resync (h : (s.link r).resync = true) :
    exec (.linkFramingError now r type len) s = .next (s.withNow now) := by
  rw [exec, execLinkFramingError, event_running hrun]
  exact congrArg _ (if_pos h)

theorem exec_linkFramingError {k : LinkErrorKind} (h : (s.link r).resync = false) (hk : framingError type len = some k) :
    exec (.linkFramingError now r type len) s = .next ((s.withNow now).withLinkError r k) := by
  have h' : ¬ ((s.withNow now).link r).resync = true := by
    have h'' : ((s.withNow now).link r).resync = false := h
    rw [h'']
    decide
  rw [exec, execLinkFramingError, event_running hrun, if_neg h', hk]
  rfl

theorem exec_linkTruncation_of_resync (h : (s.link r).resync = true) :
    exec (.linkTruncation now r) s = .next (s.withNow now) := by
  rw [exec, execLinkTruncation, event_running hrun]
  exact congrArg _ (if_pos h)

theorem exec_linkTruncation (h : (s.link r).resync = false) :
    exec (.linkTruncation now r) s = .next ((s.withNow now).withLinkError r .truncated) := by
  rw [exec, execLinkTruncation, event_running hrun]
  exact congrArg _ (if_neg (by rw [Bool.not_eq_true]; exact h))

theorem exec_linkResyncClear :
    exec (.linkResyncClear now r) s = .next ((s.withNow now).setLink r { s.link r with resync := false }) := by
  rw [exec, execLinkResyncClear, event_running hrun]
  rfl

end Framing

/-! ## The silence timer and its limit (R177, R179) -/

section Silence

variable {s : State} {now e v : AT} {r : Radio} {ms : Nat}

theorem exec_silenceTimerExpiry_of_none (hrun : s.phase = .running) (h : (s.link r).timer = none) :
    exec (.silenceTimerExpiry now r) s = .next (s.withNow now) := by
  have h' : ((s.withNow now).link r).timer = none := h
  rw [exec, execSilenceTimerExpiry, event_running hrun]
  simp only [h']

theorem exec_silenceTimerExpiry (hrun : s.phase = .running) (h : (s.link r).timer = some e) :
    exec (.silenceTimerExpiry now r) s
      = .next (if reached e now = true then silenceExpired r (s.withNow now) else s.withNow now) := by
  have h' : ((s.withNow now).link r).timer = some e := h
  rw [exec, execSilenceTimerExpiry, event_running hrun]
  simp only [h']
  rfl

theorem setSilenceLimit_of_none (h : (s.link r).timer = none) :
    setSilenceLimit r ms s = s.setLink r { s.link r with limitMs := ms } := by
  have hre : retimed (s.link r) ms = none := by
    unfold retimed
    rw [h]
  simp only [setSilenceLimit, hre]
  rw [← h]

theorem setSilenceLimit_of_running (h : (s.link r).timer = some e) (hv : (s.link r).lastValid = some v) {due : AT}
    (hdue : due = v + BitVec.ofNat 32 (ms * 1000)) {u : State}
    (hu : u = s.setLink r { s.link r with limitMs := ms, timer := some due }) :
    setSilenceLimit r ms s = if passed due s.now = true then silenceExpired r u else u := by
  have hre : retimed (s.link r) ms = some due := by
    unfold retimed
    rw [h, hv, hdue]
    rfl
  simp only [setSilenceLimit, hre, hu]

variable {a b c : Byte} {rest : List Byte}

theorem exec_setSilence_refused (h : s.inHandIs 0x78 (a :: b :: c :: rest)) (ha : 2 ≤ a.toNat) :
    exec (.setSilence now) s = .next (s.answered now 0x78 .badArgument []) := by
  rw [exec, execSetSilence]
  exact handle_of_refuse h rfl (by simp) (by rw [arg_cons_zero, radioOf_eq_none ha])

theorem exec_setSilence (h : s.inHandIs 0x78 (a :: b :: c :: rest)) (ha : radioCode r = a.toNat)
    (hms : ms = min 5000 (max 100 (256 * b.toNat + c.toNat))) {u : State} (hu : setSilenceLimit r ms (s.withNow now) = u) :
    exec (.setSilence now) s = .next (u.withHost { u.host with
      inHand := none, response := some ⟨.ok, 0x78, b2 ms⟩ }) := by
  rw [exec, execSetSilence]
  refine handle_of_okay h rfl (by simp) ?_
  have hbc := arg2_drop (a :: b :: c :: rest) b c 1 rfl rfl
  rw [arg_cons_zero, radioOf_of_code ha.symm]
  simp only [hbc, clampNat, ← hms, hu]

end Silence

/-! ## The return from silence (R178) -/

section Return

variable {s : State} {now : AT} {r : Radio} {m : HostMode}

theorem radioEvent_of_resync {body : State → State} (hrun : s.phase = .running) (h : (s.link r).resync = true) :
    radioEvent now r s body = .next (s.withNow now) := by
  rw [radioEvent, event_running hrun]
  exact congrArg _ (if_pos h)

theorem radioEvent_of_silent {body : State → State} (hrun : s.phase = .running) (h : (s.link r).resync = false)
    (hsilent : (s.link r).silent = true) : radioEvent now r s body = .next (body (returnFromSilence r (s.withNow now))) := by
  have h' : ¬ ((s.withNow now).link r).resync = true := by
    rw [Bool.not_eq_true]
    exact h
  have hsilent' : ((s.withNow now).link r).silent = true := hsilent
  rw [radioEvent, event_running hrun, if_neg h', takeValid, if_pos hsilent']

/-- R178, R127: the state after a return from silence. -/
theorem returnFromSilence_eq (hm : (s.gate r).mode = .safe m) : returnFromSilence r (s.withNow now)
    = ((raise .radioBack (radioCode r) ((s.tookRecord now r).setLink r { (s.tookRecord now r).link r with
          silent := false, sent := (s.link r).sent ++ [.gateNotice m] })).setGate r
        { s.gate r with mode := .host m }).setRecord r
        { s.record r with holding := (s.record r).holding || (s.record r).holdOnReturn } := by
  have hanswer : answerMode ((raise .radioBack (radioCode r) ((s.withNow now).setLink r
      { noteValid now (s.link r) with silent := false })).gate r) = m := by
    have hgate : (raise .radioBack (radioCode r) ((s.withNow now).setLink r
      { noteValid now (s.link r) with silent := false })).gate r = s.gate r := rfl
    rw [hgate, answerMode, hm]
  have hleave : leaveSafe r (raise .radioBack (radioCode r) ((s.withNow now).setLink r
      { noteValid now (s.link r) with silent := false }))
      = sendRadio r (.gateNotice m) ((raise .radioBack (radioCode r) ((s.withNow now).setLink r
        { noteValid now (s.link r) with silent := false })).setGate r { s.gate r with mode := .host m }) := by
    rw [leaveSafe, hanswer]
    rfl
  refine (congrArg (holdOnReturn r) hleave).trans ?_
  cases r <;> rfl

end Return

/-! ## Records of a silent radio -/

section Back

variable {s back returned : State} {now : AT} {r : Radio}

/-- R178: the record that ends the silence is handled like one of a radio in the state `returned`, which is not silent and has
not counted the record. -/
theorem radioEvent_silent_eq {body : State → State} (hrun : s.phase = .running) (hresync : (s.link r).resync = false)
    (hsilent : (s.link r).silent = true) (hback : returnFromSilence r (s.withNow now) = returned.tookRecord now r)
    (hlistens : returned.listens r) : radioEvent now r s body = radioEvent now r returned body := by
  rw [radioEvent_of_silent hrun hresync hsilent, radioEvent_of_listens hlistens, hback]

theorem State.setLink_self (s : State) (r : Radio) : s.setLink r (s.link r) = s := by
  rw [State.setLink, State.link, Pair.set_get]
  rfl

theorem State.setLink_setLink (s : State) (r : Radio) (x y : Link) : (s.setLink r x).setLink r y = s.setLink r y := by
  simp only [State.setLink, State.withLinks, Pair.set_set]

/-- A record taken at `now` by a link that has already noted it but for the count. -/
theorem tookRecord_of_uncounted {n : Nat} (hnow : back.now = now)
    (htimer : (back.link r).timer = some (now + BitVec.ofNat 32 ((back.link r).limitMs * 1000)))
    (hvalid : (back.link r).lastValid = some now) (htaken : (back.link r).taken = min 65535 (n + 1)) :
    (back.setLink r { back.link r with taken := n }).tookRecord now r = back := by
  subst hnow
  refine (State.setLink_setLink back r _ _).trans ?_
  rw [State.setLink_link, ← htimer, ← hvalid, ← htaken]
  exact State.setLink_self back r

/-- Every record but STATUS is handled by one effect on the state that has taken it. -/
theorem exec_eq_radioEvent {b tag cls raw : Byte} {len minLen maxWait used : BitVec 16} {network airtime : BitVec 32}
    {i : Instr} (hi : i ∈ ([.airRequest now r tag len minLen maxWait cls, .airEnd now r tag used,
      .overheard now r network b raw airtime, .radar now r b, .switched now r b] : List Instr)) :
    ∃ body : State → State, ∀ s, exec i s = radioEvent now r s body := by
  simp only [List.mem_cons, List.not_mem_nil, or_false] at hi
  rcases hi with rfl | rfl | rfl | rfl | rfl
  · exact ⟨_, fun s => by rw [exec, execAirRequest]⟩
  · exact ⟨_, fun s => by rw [exec, execAirEnd]⟩
  · exact ⟨_, fun s => by rw [exec, execOverheard]⟩
  · exact ⟨_, fun s => by rw [exec, execRadar]⟩
  · exact ⟨_, fun s => by rw [exec, execSwitched]⟩

theorem statusTaken_noticed {c : Chan} {noticed : Bool} (h : (s.link r).chan ≠ none) :
    statusTaken r c noticed s = statusTaken r c false s := by
  unfold statusTaken
  split
  · next hnone => exact absurd hnone h
  · rfl

theorem statusTaken_of_unknown_noticed {c : Chan} (h : (s.link r).chan = none) :
    statusTaken r c true s = s.setLink r { s.link r with chan := some c } := by
  rw [statusTaken, h]
  rfl

/-- R170: whether the notice was sent matters only to a first STATUS that passes. -/
theorem statusChecked_noticed {band b : Byte} {noticed : Bool} (h : (s.link r).chan ≠ none
      ∨ ∀ c : Chan, ¬ (b.toNat = c.val ∧ band.toNat = if c.val ≤ 12 then 0 else 1)) :
    statusChecked r band b noticed s = statusChecked r band b false s := by
  rcases Nat.lt_or_ge b.toNat 38 with hb | hb
  · have hc : (⟨b.toNat, hb⟩ : Chan).val = b.toNat := rfl
    by_cases hband : band.toNat = if (⟨b.toNat, hb⟩ : Chan).val ≤ 12 then 0 else 1
    · rw [statusChecked_of_band hc hband, statusChecked_of_band hc hband]
      rcases h with h | h
      · exact statusTaken_noticed h
      · exact absurd ⟨rfl, hband⟩ (h ⟨b.toNat, hb⟩)
    · rw [statusChecked_of_bad_band hc hband, statusChecked_of_bad_band hc hband]
  · rw [statusChecked_refused hb, statusChecked_refused hb]

end Back

/-- Settles O60: framing, the silence timer and its limit, and the return of a silent radio for each of the six records. -/
theorem linkFramingAndSilence : Obligations.LinkFramingAndSilence := by
  unfold Obligations.LinkFramingAndSilence
  intro now r s hrun silenced
  refine ⟨fun type len => ⟨fun h => ⟨exec_linkFramingError_of_resync hrun h, exec_linkTruncation_of_resync hrun h⟩,
      fun h => ⟨fun hu => exec_linkFramingError hrun h (framingError_of_unknown hu),
        fun row hrow ht hl => exec_linkFramingError hrun h (framingError_of_length hrow ht hl), exec_linkTruncation hrun h⟩⟩,
    exec_linkResyncClear hrun, fun e he => ⟨fun hge => ?_, fun hlt => ?_⟩, exec_silenceTimerExpiry_of_none hrun,
    fun a b c rest h => ⟨exec_setSilence_refused h, fun ha => ?_⟩,
    fun band b tag cls raw len minLen maxWait used network airtime => ?_⟩
  · rw [exec_silenceTimerExpiry hrun he, if_pos (reached_of_le hge)]
    rfl
  · rw [exec_silenceTimerExpiry hrun he, if_neg (not_reached_of_lt hlt)]
  · intro ms u
    refine ⟨fun hnone => ?_, fun e v he hv => ?_⟩
    · exact (exec_setSilence h ha rfl (setSilenceLimit_of_none (by exact hnone))).trans rfl
    · intro due
      have hlimit := setSilenceLimit_of_running (s := s.withNow now) (ms := ms) he hv rfl rfl
      refine ⟨fun hle => ?_, fun hlt => ?_⟩
      · have hno : ¬ passed due now = true := fun hp => absurd (of_decide_eq_true hp) (not_lt.mpr hle)
        exact (exec_setSilence h ha rfl (hlimit.trans (if_neg hno))).trans rfl
      · have hyes : passed due now = true := decide_eq_true hlt
        exact (exec_setSilence h ha rfl (hlimit.trans (if_pos hyes))).trans rfl
  · intro records
    refine ⟨fun hresync i hi => ?_, fun m hresync hsilent hm => ?_⟩
    · rcases List.mem_cons.mp hi with rfl | hi
      · exact radioEvent_of_resync hrun hresync
      · obtain ⟨body, hbody⟩ := exec_eq_radioEvent hi
        rw [hbody, radioEvent_of_resync hrun hresync]
    · intro u back returned passes
      have hback : returnFromSilence r (s.withNow now) = back := returnFromSilence_eq hm
      have hlink : back.link r = { u.link r with silent := false, sent := (s.link r).sent ++ [.gateNotice m] } :=
        State.setLink_link u r _
      have hreturned : returned.link r = { back.link r with taken := (s.link r).taken } := State.setLink_link back r _
      have hlistens : returned.listens r := by
        refine ⟨hrun, ?_, ?_⟩ <;> rw [hreturned, hlink]
        exact (congrArg Link.resync (State.tookRecord_link s now r)).trans hresync
      have htook : returned.tookRecord now r = back :=
        tookRecord_of_uncounted rfl (by rw [hlink, State.tookRecord_link]) (by rw [hlink, State.tookRecord_link])
          (by rw [hlink, State.tookRecord_link])
      have hsame {body : State → State} : radioEvent now r s body = radioEvent now r returned body :=
        radioEvent_silent_eq hrun hresync hsilent (hback.trans htook.symm) hlistens
      have hchan : (back.link r).chan = (s.link r).chan := by
        rw [hlink]
        exact State.tookRecord_link_chan s now r r
      have hstatus : exec (.status now r band b) s = .next (statusChecked r band b true back) := by
        have h : exec (.status now r band b) s = radioEvent now r s (statusChecked r band b (s.link r).silent) := rfl
        rw [h, radioEvent_of_silent hrun hresync hsilent, hback, hsilent]
      refine ⟨fun i hi => ?_, fun hno => ?_, fun c hc hhere => ?_, fun c hc hnone => ?_⟩
      · obtain ⟨body, hbody⟩ := exec_eq_radioEvent hi
        rw [hbody, hbody, hsame]
      · rw [hstatus, exec_status hlistens, htook, statusChecked_noticed (hno.imp_left fun h => hchan ▸ h)]
      · obtain ⟨hc, hband⟩ := hc
        rw [hstatus, statusChecked_of_band hc.symm hband, statusTaken_of_here (hchan.trans hhere)]
      · obtain ⟨hc, hband⟩ := hc
        rw [hstatus, statusChecked_of_band hc.symm hband, statusTaken_of_unknown_noticed (hchan.trans hnone)]

end Sys2Proof.Machine
end

section
/-! The two scans of an airtime request (R143, R144), over any finite list that represents a blocking set near the request. -/

namespace Sys2Proof.Machine

set_option Elab.async false

/-! ## A blocking set and the list that represents it -/

/-- R143: `n` µs from `w` meet no interval of the blocking set `B`. -/
def Clear (B : Int → Int → Prop) (w n : Int) : Prop := ∀ lo hi, B lo hi → w + n ≤ lo ∨ hi ≤ w

/-- R143: `next` is the latest end among the intervals of `B` that overlap the `n` µs from `start`. -/
def MovesOn (B : Int → Int → Prop) (n start next : Int) : Prop :=
  (∃ lo, B lo next ∧ lo < start + n ∧ start < next) ∧ ∀ lo hi, B lo hi → lo < start + n → start < hi → hi ≤ next

/-- The list `L` holds the intervals of `B` that meet the instants from 0 to before `reach`, and no others than those of `B`; none
is empty. -/
structure Represents (L : List (Int × Int)) (B : Int → Int → Prop) (reach : Int) : Prop where
  sound : ∀ i ∈ L, B i.1 i.2
  complete : ∀ lo hi, B lo hi → lo < reach → 0 < hi → (lo, hi) ∈ L
  nonempty : ∀ lo hi, B lo hi → lo < hi

section Scans

variable {L : List (Int × Int)} {B : Int → Int → Prop} {reach : Int}

theorem Clear.mono {w n m : Int} (h : Clear B w n) (hm : m ≤ n) : Clear B w m := fun lo hi hB => by
  have := h lo hi hB
  omega

/-! ## Scan A (R143) -/

section LatestEnd

variable (hL : Represents L B reach) {start : Int} {n : Nat} (hn : 1 ≤ n) (hstart : 0 ≤ start) (hreach : start + n ≤ reach)
include hL hn hstart hreach

theorem mem_overlapping_iff {lo hi : Int} : (lo, hi) ∈ L.filter (fun i => overlaps i (start, start + n))
    ↔ B lo hi ∧ lo < start + n ∧ start < hi := by
  rw [List.mem_filter, overlaps_iff]
  constructor
  · rintro ⟨hmem, -, -, hlo, hhi⟩
    exact ⟨hL.sound _ hmem, hlo, hhi⟩
  · rintro ⟨hB, hlo, hhi⟩
    have hne := hL.nonempty lo hi hB
    refine ⟨hL.complete lo hi hB (by omega) (by omega), hne, ?_, hlo, hhi⟩
    simp only
    omega

theorem clear_of_latestEnd_none (h : latestEnd L start n = none) : Clear B start n := by
  intro lo hi hB
  by_contra hno
  have hmem := (mem_overlapping_iff hL hn hstart hreach).mpr ⟨hB, by omega, by omega⟩
  rw [latestEnd, List.max?_eq_none_iff, List.map_eq_nil_iff] at h
  rw [h] at hmem
  cases hmem

theorem movesOn_of_latestEnd {e : Int} (h : latestEnd L start n = some e) : MovesOn B n start e := by
  obtain ⟨hmem, hmax⟩ := List.max?_eq_some_iff.mp h
  obtain ⟨⟨lo, hi⟩, hi_mem, rfl⟩ := List.mem_map.mp hmem
  refine ⟨⟨lo, (mem_overlapping_iff hL hn hstart hreach).mp hi_mem⟩, fun lo' hi' hB hlo hhi => ?_⟩
  exact hmax _ (List.mem_map.mpr ⟨_, (mem_overlapping_iff hL hn hstart hreach).mpr ⟨hB, hlo, hhi⟩, rfl⟩)

end LatestEnd

/-- R143: `starts` lists the successive starts of scan A, of which the first `k` lie within the horizon and are moved on. -/
def ScanTrace (B : Int → Int → Prop) (n horizon : Int) (starts : Nat → Int) (k : Nat) : Prop :=
  ∀ i < k, starts i ≤ horizon ∧ MovesOn B n (starts i) (starts (i + 1))

section Trace

variable {starts : Nat → Int} {n horizon : Int} {k : Nat}

theorem ScanTrace.le (h : ScanTrace B n horizon starts k) : starts 0 ≤ starts k := by
  induction k with
  | zero => exact le_rfl
  | succ k ih =>
    obtain ⟨-, ⟨lo, -, -, hlt⟩, -⟩ := h k (Nat.lt_succ_self k)
    exact (ih fun i hi => h i (Nat.lt_succ_of_lt hi)).trans hlt.le

/-- No start that the scan passes over is clear. -/
theorem ScanTrace.not_clear (h : ScanTrace B n horizon starts k) {v : Int} (h0 : starts 0 ≤ v) (hk : v < starts k) :
    ¬ Clear B v n := by
  induction k with
  | zero => omega
  | succ k ih =>
    by_cases hv : v < starts k
    · exact ih (fun i hi => h i (Nat.lt_succ_of_lt hi)) hv
    · obtain ⟨-, ⟨lo, hB, hlo, hlt⟩, -⟩ := h k (Nat.lt_succ_self k)
      intro hclear
      have := hclear lo _ hB
      omega

/-- A scan that starts by moving on. -/
theorem ScanTrace.cons {start : Int} (h : ScanTrace B n horizon starts k) (hs : start ≤ horizon)
    (hmove : MovesOn B n start (starts 0)) : ScanTrace B n horizon (fun i => Nat.casesOn i start starts) (k + 1) := by
  intro i hi
  cases i with
  | zero => exact ⟨hs, hmove⟩
  | succ i => exact h i (Nat.lt_of_succ_lt_succ hi)

end Trace

/-- The intervals that end after `start`, which scan A has left to move past. -/
def endingAfter (L : List (Int × Int)) (start : Int) : List (Int × Int) := L.filter fun i => decide (start < i.2)

theorem endingAfter_lt {start next : Int} (hlt : start < next) (hmem : ∃ lo, (lo, next) ∈ L) :
    (endingAfter L next).length < (endingAfter L start).length := by
  have hsub : endingAfter L next = (endingAfter L start).filter fun i => decide (next < i.2) := by
    rw [endingAfter, endingAfter, List.filter_filter]
    refine List.filter_congr fun i _ => ?_
    by_cases hi : next < i.2
    · simp [hi, hlt.trans hi]
    · simp [hi]
  rw [hsub, List.length_filter_lt_length_iff_exists]
  obtain ⟨lo, hlo⟩ := hmem
  exact ⟨(lo, next), List.mem_filter.mpr ⟨hlo, decide_eq_true hlt⟩, by simp⟩

/-- R143: what scan A finds: its last start, and whether it is a clear one within the horizon or one beyond. -/
theorem scanA_trace (hL : Represents L B reach) {n maxWait : Nat} (hn : 1 ≤ n) (hreach : (maxWait : Int) + n ≤ reach) :
    ∀ (fuel : Nat) (start : Int), 0 ≤ start → (endingAfter L start).length < fuel →
      ∃ starts k, starts 0 = start ∧ ScanTrace B n maxWait starts k ∧ (scanA L n maxWait fuel start).1 = starts k
        ∧ ((scanA L n maxWait fuel start).2 = true → starts k ≤ maxWait ∧ Clear B (starts k) n)
        ∧ ((scanA L n maxWait fuel start).2 = false → (maxWait : Int) < starts k) := by
  intro fuel
  induction fuel with
  | zero => exact fun start _ hfuel => absurd hfuel (Nat.not_lt_zero _)
  | succ fuel ih =>
    intro start h0 hfuel
    by_cases hpast : (maxWait : Int) < start
    · have hscan : scanA L n maxWait (fuel + 1) start = (start, false) := if_pos hpast
      rw [hscan]
      exact ⟨fun _ => start, 0, rfl, fun i hi => absurd hi (Nat.not_lt_zero _), rfl, nofun, fun _ => hpast⟩
    · have hbound : start + n ≤ reach := by omega
      cases he : latestEnd L start n with
      | none =>
        have hscan : scanA L n maxWait (fuel + 1) start = (start, true) := by rw [scanA, if_neg hpast, he]
        rw [hscan]
        exact ⟨fun _ => start, 0, rfl, fun i hi => absurd hi (Nat.not_lt_zero _), rfl,
          fun _ => ⟨not_lt.mp hpast, clear_of_latestEnd_none hL hn h0 hbound he⟩, nofun⟩
      | some e =>
        have hscan : scanA L n maxWait (fuel + 1) start = scanA L n maxWait fuel e := by rw [scanA, if_neg hpast, he]
        have hmove := movesOn_of_latestEnd hL hn h0 hbound he
        obtain ⟨lo, hB, hlo, hlt⟩ := hmove.1
        have hless := endingAfter_lt hlt ⟨lo, hL.complete lo e hB (by omega) (by omega)⟩
        obtain ⟨starts, k, hs0, htrace, hres, hyes, hno⟩ := ih e (by omega) (by omega)
        rw [hscan]
        exact ⟨_, k + 1, rfl, htrace.cons (not_lt.mp hpast) (hs0 ▸ hmove), hres, hyes, hno⟩

section ScanA

variable (hL : Represents L B reach) {n maxWait : Nat} (hn : 1 ≤ n) (hreach : (maxWait : Int) + n ≤ reach)
include hL hn hreach

/-- R143: scan A as a request runs it. -/
theorem scanA_spec : ∃ starts k, starts 0 = 0 ∧ ScanTrace B n maxWait starts k
    ∧ (scanA L n maxWait (L.length + 1) 0).1 = starts k
    ∧ ((scanA L n maxWait (L.length + 1) 0).2 = true → starts k ≤ maxWait ∧ Clear B (starts k) n)
    ∧ ((scanA L n maxWait (L.length + 1) 0).2 = false → (maxWait : Int) < starts k) :=
  scanA_trace hL hn hreach _ 0 le_rfl (Nat.lt_succ_of_le (List.length_filter_le _ _))

theorem scanA_of_first_clear {w : Nat} (hw : w ≤ maxWait) (hclear : Clear B w n) (hfirst : ∀ v : Nat, v < w → ¬ Clear B v n) :
    scanA L n maxWait (L.length + 1) 0 = ((w : Int), true) := by
  obtain ⟨starts, k, h0, htrace, hres, hyes, hno⟩ := scanA_spec hL hn hreach
  have hle : starts k ≤ w := by
    by_contra hlt
    exact htrace.not_clear (by omega) (not_le.mp hlt) hclear
  have htrue : (scanA L n maxWait (L.length + 1) 0).2 = true := by
    by_contra hfalse
    have := hno (by simpa using hfalse)
    omega
  obtain ⟨-, hk⟩ := hyes htrue
  have hpos := htrace.le
  have heq : starts k = w := by
    by_contra hne
    refine hfirst (starts k).toNat (by omega) ?_
    rw [Int.toNat_of_nonneg (by omega)]
    exact hk
  exact Prod.ext (hres.trans heq) htrue

theorem scanA_of_none_clear (hnone : ∀ w : Nat, w ≤ maxWait → ¬ Clear B w n) :
    ∃ starts k, starts 0 = 0 ∧ ScanTrace B n maxWait starts k ∧ (maxWait : Int) < starts k
      ∧ scanA L n maxWait (L.length + 1) 0 = (starts k, false) := by
  obtain ⟨starts, k, h0, htrace, hres, hyes, hno⟩ := scanA_spec hL hn hreach
  have hpos := htrace.le
  have hfalse : (scanA L n maxWait (L.length + 1) 0).2 = false := by
    by_contra htrue
    obtain ⟨hle, hk⟩ := hyes (by simpa using htrue)
    refine hnone (starts k).toNat (by omega) ?_
    rw [Int.toNat_of_nonneg (by omega)]
    exact hk
  exact ⟨starts, k, h0, htrace, hno hfalse, Prod.ext hres hfalse⟩

end ScanA

/-! ## Scan B (R144) -/

theorem insertInt_eq (x : Int) (l : List Int) : insertInt x l = l.orderedInsert (· ≤ ·) x := by
  induction l with
  | nil => rfl
  | cons y l ih => rw [insertInt, List.orderedInsert_cons, ih]

theorem foldr_insertInt_eq (l : List Int) : l.foldr insertInt [] = l.insertionSort (· ≤ ·) := by
  induction l with
  | nil => rfl
  | cons x l ih => rw [List.foldr_cons, ih, insertInt_eq, List.insertionSort_cons]

theorem shortCandidates_sorted (maxWait : Nat) : (shortCandidates L maxWait).Pairwise (· ≤ ·) := by
  rw [shortCandidates, foldr_insertInt_eq]
  exact List.pairwise_insertionSort _ _

theorem mem_shortCandidates {maxWait : Nat} {v : Int} :
    v ∈ shortCandidates L maxWait ↔ v = 0 ∨ (∃ lo, (lo, v) ∈ L) ∧ 0 < v ∧ v ≤ maxWait := by
  rw [shortCandidates, foldr_insertInt_eq, List.mem_insertionSort, List.mem_cons, List.mem_filter, List.mem_map]
  simp only [decide_eq_true_eq, Prod.exists, exists_eq_right]

section FreeRun

variable (hL : Represents L B reach) {c : Int} {n m : Nat} (hc : 0 ≤ c) (hreach : c + n ≤ reach)
include hL hc hreach

/-- R144: the free run of a candidate is clear. -/
theorem clear_of_freeRun (h : freeRun L n c = some m) : Clear B c m := by
  have hm : m ≤ n := freeRun_le h
  unfold freeRun at h
  split at h
  · cases h
  · next hany =>
    intro lo hi hB
    by_contra hno
    have hmem := hL.complete lo hi hB (by omega) (by omega)
    have hlo : c ≤ lo := by
      by_contra hlt
      exact hany (List.any_eq_true.mpr ⟨_, hmem, decide_eq_true ⟨by simp only; omega, by simp only; omega⟩⟩)
    have hstart : lo ∈ (L.map (·.1)).filter fun b => decide (c ≤ b) :=
      List.mem_filter.mpr ⟨List.mem_map.mpr ⟨_, hmem, rfl⟩, decide_eq_true hlo⟩
    split at h
    · next hnone =>
      rw [List.min?_eq_none_iff.mp hnone] at hstart
      cases hstart
    · next b hb =>
      have hle := (List.min?_eq_some_iff.mp hb).2 lo hstart
      have hcb : c ≤ b := of_decide_eq_true (List.mem_filter.mp (List.min?_mem hb)).2
      have hmb := Option.some.inj h
      omega

/-- R144: a run that is clear, and no longer clear by one more, is the free run. -/
theorem freeRun_of_clear (hm : 1 ≤ m) (hlt : m < n) (hclear : Clear B c m) (hmore : ¬ Clear B c (m + 1 : Nat)) :
    freeRun L n c = some m := by
  have hany : ¬ (L.any fun i => decide (i.1 ≤ c ∧ c < i.2)) = true := by
    rw [List.any_eq_true]
    rintro ⟨i, hi, hin⟩
    have hin := of_decide_eq_true hin
    have := hclear _ _ (hL.sound i hi)
    omega
  obtain ⟨lo, hi, hB, hmeet⟩ : ∃ lo hi, B lo hi ∧ ¬ (c + (m + 1 : Nat) ≤ lo ∨ hi ≤ c) := by
    simpa [Clear] using hmore
  have hat := hclear lo hi hB
  have hmin : ((L.map (·.1)).filter fun b => decide (c ≤ b)).min? = some (c + m) := by
    refine List.min?_eq_some_iff.mpr ⟨?_, fun b hb => ?_⟩
    · refine List.mem_filter.mpr ⟨List.mem_map.mpr ⟨(lo, hi), hL.complete lo hi hB (by omega) (by omega), ?_⟩,
        decide_eq_true (by omega)⟩
      simp only
      omega
    · obtain ⟨hb, hcb⟩ := List.mem_filter.mp hb
      obtain ⟨i, hi, rfl⟩ := List.mem_map.mp hb
      have hcb := of_decide_eq_true hcb
      have hne := hL.nonempty _ _ (hL.sound i hi)
      have := hclear _ _ (hL.sound i hi)
      omega
  rw [freeRun, if_neg hany, hmin]
  exact congrArg some (by omega)

end FreeRun

section ScanB

variable {n least : Nat} {cs : List Int}

/-- R144: a candidate whose free run does not reach the minimum. -/
def TooShort (L : List (Int × Int)) (n least : Nat) (v : Int) : Prop := ∀ m, freeRun L n v = some m → ¬ least ≤ m

theorem scanB_cons_of_tooShort {v : Int} (h : TooShort L n least v) : scanB L n least (v :: cs) = scanB L n least cs := by
  rw [scanB]
  split
  · next m hm => exact if_neg (h m hm)
  · rfl

theorem scanB_of_none (h : ∀ v ∈ cs, TooShort L n least v) : scanB L n least cs = none := by
  induction cs with
  | nil => rfl
  | cons v cs ih =>
    obtain ⟨hv, hcs⟩ := List.forall_mem_cons.mp h
    rw [scanB_cons_of_tooShort hv, ih hcs]

/-- R144: the least candidate that reaches the minimum is the first in order. -/
theorem scanB_of_first {w : Int} {m : Nat} (hs : cs.Pairwise (· ≤ ·)) (hw : w ∈ cs) (hm : freeRun L n w = some m)
    (hleast : least ≤ m) (hfirst : ∀ v ∈ cs, v < w → TooShort L n least v) : scanB L n least cs = some (w, m) := by
  induction cs with
  | nil => cases hw
  | cons v cs ih =>
    obtain ⟨hle, hs⟩ := List.pairwise_cons.mp hs
    by_cases hv : v = w
    · subst hv
      rw [scanB, hm]
      exact if_pos hleast
    · have hmem : w ∈ cs := (List.mem_cons.mp hw).resolve_left (Ne.symm hv)
      have hlt : v < w := lt_of_le_of_ne (hle w hmem) hv
      rw [scanB_cons_of_tooShort (hfirst v List.mem_cons_self hlt)]
      exact ih hs hmem fun x hx => hfirst x (List.mem_cons_of_mem _ hx)

theorem scanB_some {x : Int × Nat} (h : scanB L n least cs = some x) : x.1 ∈ cs ∧ freeRun L n x.1 = some x.2 := by
  fun_induction scanB L n least cs with
  | case1 => cases h
  | case2 c rest m hfree hmin =>
    obtain rfl := Option.some.inj h
    exact ⟨List.mem_cons_self, hfree⟩
  | case3 c rest m hfree hmin ih =>
    obtain ⟨hmem, hrun⟩ := ih h
    exact ⟨List.mem_cons_of_mem _ hmem, hrun⟩
  | case4 c rest hfree ih =>
    obtain ⟨hmem, hrun⟩ := ih h
    exact ⟨List.mem_cons_of_mem _ hmem, hrun⟩

theorem candidate_bounds {maxWait : Nat} {v : Int} (hv : v ∈ shortCandidates L maxWait) : 0 ≤ v ∧ v ≤ maxWait := by
  rcases mem_shortCandidates.mp hv with rfl | ⟨-, hpos, hle⟩
  · omega
  · omega

variable (hL : Represents L B reach) {maxWait : Nat} (hreach : (maxWait : Int) + n ≤ reach)
include hL hreach

theorem tooShort_of_not_clear {v : Int} (h0 : 0 ≤ v) (hv : v ≤ maxWait) (h : ¬ Clear B v least) : TooShort L n least v :=
  fun _ hm hle => h ((clear_of_freeRun hL h0 (by omega) hm).mono (by omega))

/-- R144: the earliest clear start is 0 or the end of an interval. -/
theorem first_clear_mem_candidates {w : Nat} (hn : least ≤ n) (hw : w ≤ maxWait) (hclear : Clear B w least)
    (hfirst : ∀ v : Nat, v < w → ¬ Clear B v least) : (w : Int) ∈ shortCandidates L maxWait := by
  rw [mem_shortCandidates]
  by_cases h0 : w = 0
  · exact .inl (by omega)
  · obtain ⟨lo, hi, hB, hmeet⟩ : ∃ lo hi, B lo hi ∧ ¬ (((w - 1 : Nat) : Int) + least ≤ lo ∨ hi ≤ (w - 1 : Nat)) := by
      simpa [Clear] using hfirst (w - 1) (by omega)
    have hat := hclear lo hi hB
    have hhi : hi = w := by omega
    subst hhi
    exact .inr ⟨⟨lo, hL.complete lo w hB (by omega) (by omega)⟩, by omega, by omega⟩

theorem scanB_of_first_clear {w m : Nat} (hleast : 1 ≤ least) (hw : w ≤ maxWait) (hclear : Clear B w least)
    (hfirst : ∀ v : Nat, v < w → ¬ Clear B v least) (hm : Clear B w m) (hmore : ¬ Clear B w (m + 1 : Nat)) (hlt : m < n) :
    scanB L n least (shortCandidates L maxWait) = some ((w : Int), m) := by
  have hle : least ≤ m := by
    by_contra hgt
    exact hmore (hclear.mono (by omega))
  refine scanB_of_first (shortCandidates_sorted maxWait)
    (first_clear_mem_candidates hL hreach (by omega) hw hclear hfirst)
    (freeRun_of_clear hL (by omega) (by omega) (by omega) hlt hm hmore) hle fun v hv hvw => ?_
  obtain ⟨h0, hvle⟩ := candidate_bounds hv
  refine tooShort_of_not_clear hL hreach h0 hvle fun hvclear => hfirst v.toNat (by omega) ?_
  rw [Int.toNat_of_nonneg h0]
  exact hvclear

theorem scanB_of_none_clear (hnone : ∀ w : Nat, w ≤ maxWait → ¬ Clear B w least) :
    scanB L n least (shortCandidates L maxWait) = none := by
  refine scanB_of_none fun v hv => ?_
  obtain ⟨h0, hvle⟩ := candidate_bounds hv
  refine tooShort_of_not_clear hL hreach h0 hvle fun hvclear => hnone v.toNat (by omega) ?_
  rw [Int.toNat_of_nonneg h0]
  exact hvclear

end ScanB

end Scans

end Sys2Proof.Machine
end

section
/-! What an airtime request is granted (R140 to R147): the blocking set of a request as the list that the scans meet, the answer
computed from them, and its effect. -/

namespace Sys2Proof.Machine

set_option Elab.async false

/-! ## The windows of one tracker (R65, R141) -/

section Windows

variable {a period width g reach : Int}

theorem mem_windowsFrom {i : Int × Int} (h : i ∈ windowsFrom a period width g reach) :
    ∃ k : Int, i = (a + k * period - g, a + k * period + width + g) := by
  obtain ⟨n, -, rfl⟩ := List.mem_map.mp h
  exact ⟨_, rfl⟩

/-- Every window that ends after 0 and starts at or before `reach` is listed. -/
theorem windowsFrom_complete (hp : 0 < period) {k : Int} (hstart : a + k * period - g ≤ reach)
    (hend : 0 < a + k * period + width + g) :
    (a + k * period - g, a + k * period + width + g) ∈ windowsFrom a period width g reach := by
  have hfirst : -(a + width + g) / period ≤ k := by
    refine Int.le_of_mul_le_mul_right ?_ hp
    have := Int.ediv_mul_le (-(a + width + g)) hp.ne'
    omega
  have hlast : k ≤ (reach + g - a) / period := (Int.le_ediv_iff_mul_le hp).mpr (by omega)
  refine List.mem_map.mpr ⟨(k - -(a + width + g) / period).toNat, List.mem_range.mpr (by omega), ?_⟩
  have hk : -(a + width + g) / period + ((k - -(a + width + g) / period).toNat : Int) = k := by omega
  simp only [hk]

end Windows

/-! ## The blocking set of a request (R140 to R142) -/

section Blocking

variable {s : State} {r : Radio} {c : Chan} {q : Request}

theorem mem_shapingOvens {cls : ReqClass} {o : Oven} : o ∈ shapingOvens s cls c ↔ s.shapes cls c o := by
  have hone (k : TrackerId) : contributes s cls c k = some o ↔ (s.tracker k).oven = some o
      ∧ protecting s.otk.settings.policy cls o = true ∧ covers o c = true := by
    unfold contributes
    split
    · next h => simp [h]
    · next x h =>
      rw [h]
      by_cases hx : x = o
      · subst hx
        simp
      · simp [hx]
  unfold shapingOvens State.shapes
  by_cases hc : c.val ≤ 12
  · rw [bandOf_of_le_12 hc]
    simp only [List.mem_filterMap, hone, hc, mem_allTrackers, true_and]
    constructor
    · rintro ⟨k, ho, hp, hcov⟩
      exact ⟨hp, hcov, k, ho⟩
    · rintro ⟨hp, hcov, k, ho⟩
      exact ⟨k, ho, hp, hcov⟩
  · rw [bandOf_of_13_le (by omega)]
    simp [hc]

theorem State.shapes.ok {cls : ReqClass} {o : Oven} (hinv : TrackerInv s) (h : s.shapes cls c o) : o.ok := by
  obtain ⟨-, -, -, k, ho⟩ := h
  obtain ⟨-, htr⟩ := hinv
  obtain ⟨-, -, hok⟩ := htr k
  exact hok o ho

theorem Oven.ok.period_pos {o : Oven} (h : o.ok) : 0 < o.period := by
  obtain ⟨hlo, -⟩ := h
  revert hlo
  cases o.candidate <;> exact fun hlo => Nat.lt_of_lt_of_le (by decide) hlo

/-- R142: the exclusion interval is the other radio's outstanding grant, when it ends after `t0`. -/
theorem mem_exclusionInterval {t0 : AT} {lo hi : Int} : (lo, hi) ∈ exclusionInterval s r t0
    ↔ exclusionApplies s r = true ∧ ∃ g, (s.gate (otherRadio r)).slot = some g
      ∧ lo = tdiff g.start t0 ∧ hi = tdiff (g.start + BitVec.ofNat 32 g.length) t0 ∧ 0 < hi := by
  unfold exclusionInterval
  by_cases hex : exclusionApplies s r = true
  · rw [if_pos hex]
    cases hg : (s.gate (otherRadio r)).slot with
    | none => simp
    | some g =>
      have hmem : (lo, hi) ∈ (if 0 < tdiff (grantEnd g) t0 then [spanFrom t0 g.start (grantEnd g)] else [])
          ↔ lo = tdiff g.start t0 ∧ hi = tdiff (grantEnd g) t0 ∧ 0 < hi := by
        by_cases hpos : 0 < tdiff (grantEnd g) t0
        · rw [if_pos hpos, List.mem_singleton, spanFrom, Prod.mk.injEq]
          exact and_congr_right fun _ => ⟨fun h => ⟨h, h ▸ hpos⟩, And.left⟩
        · rw [if_neg hpos]
          exact ⟨nofun, fun ⟨_, hhi, h⟩ => absurd (hhi ▸ h) hpos⟩
      simp only [hmem, hex, true_and, Option.some.injEq, exists_eq_left']
      rfl
  · simp [hex]

/-- A grant in range whose end lies after `t0` starts before its end, counted from `t0`. -/
theorem tdiff_start_lt_end {start t0 : AT} {n : Nat} (hn : 32 ≤ n ∧ n ≤ 8000)
    (h : 0 < tdiff (start + BitVec.ofNat 32 n) t0) : tdiff start t0 < tdiff (start + BitVec.ofNat 32 n) t0 := by
  have hsum : start + BitVec.ofNat 32 n - t0 = (start - t0) + BitVec.ofNat 32 n := by
    rw [BitVec.sub_eq_add_neg, BitVec.sub_eq_add_neg, BitVec.add_assoc, BitVec.add_comm (BitVec.ofNat 32 n), BitVec.add_assoc]
  have hint : (BitVec.ofNat 32 n).toInt = n := by
    rw [BitVec.toInt_eq_toNat_cond, BitVec.toNat_ofNat, Nat.mod_eq_of_lt (by omega), if_pos (by omega)]
  have hlo := BitVec.le_toInt (start - t0)
  have hhi := BitVec.toInt_lt (x := start - t0)
  unfold tdiff at *
  rw [hsum, BitVec.toInt_add, hint, Int.bmod_def] at h ⊢
  split at h <;> split <;> omega

theorem blockingSet_represents (htracker : TrackerInv s) (hgate : GateInv s) :
    Represents (blockingSet s r c q) (s.blocks r c q.cls q.t0) (q.maxWait + q.length) where
  sound i hi := by
    rcases List.mem_append.mp hi with hi | hi
    · obtain ⟨o, ho, hi⟩ := List.mem_flatMap.mp hi
      obtain ⟨k, rfl⟩ := mem_windowsFrom hi
      exact .inl ⟨o, mem_shapingOvens.mp ho, k, rfl, rfl⟩
    · exact .inr (mem_exclusionInterval.mp hi)
  complete lo hi hB hlo hhi := by
    refine List.mem_append.mpr ?_
    rcases hB with ⟨o, ho, k, rfl, rfl⟩ | hB
    · have hp : (0 : Int) < o.period := Int.natCast_pos.mpr (ho.ok htracker).period_pos
      exact .inl (List.mem_flatMap.mpr ⟨o, mem_shapingOvens.mpr ho, windowsFrom_complete hp hlo.le hhi⟩)
    · exact .inr (mem_exclusionInterval.mpr hB)
  nonempty lo hi hB := by
    rcases hB with ⟨o, ho, k, rfl, rfl⟩ | ⟨-, g, hg, rfl, rfl, hpos⟩
    · obtain ⟨-, -, hw, -⟩ := ho.ok htracker
      omega
    · exact tdiff_start_lt_end (hgate.2 _ g hg) hpos

end Blocking

/-! ## The answer (R143 to R145) -/

section Answer

variable {L : List (Int × Int)} {B : Int → Int → Prop} {q : Request} {bound : Option Nat}

theorem answerOf_eq : answerOf L bound q
    = if (scanA L q.length q.maxWait (L.length + 1) 0).2 = true
        then .grant (scanA L q.length q.maxWait (L.length + 1) 0).1.toNat q.length
      else if q.minLength = 0 then noRoom bound q.length (scanA L q.length q.maxWait (L.length + 1) 0).1
      else match scanB L q.length q.minLength (shortCandidates L q.maxWait) with
        | some x => .short x.1.toNat x.2
        | none => noRoom bound q.length (scanA L q.length q.maxWait (L.length + 1) 0).1 := rfl

variable (hL : Represents L B (q.maxWait + q.length)) (hq : q.ok)
include hL hq

theorem answerOf_of_first_clear {w : Nat} (hw : w ≤ q.maxWait) (hclear : Clear B w q.length)
    (hfirst : ∀ v : Nat, v < w → ¬ Clear B v q.length) : answerOf L bound q = .grant w q.length := by
  obtain ⟨hlength, -⟩ := hq
  have hscan := scanA_of_first_clear hL (by omega) le_rfl hw hclear hfirst
  rw [answerOf_eq, hscan]
  rfl

theorem answerOf_short {w n : Nat} (hnone : ∀ w : Nat, w ≤ q.maxWait → ¬ Clear B w q.length) (hmin : q.minLength ≠ 0)
    (hw : w ≤ q.maxWait) (hclear : Clear B w q.minLength) (hfirst : ∀ v : Nat, v < w → ¬ Clear B v q.minLength)
    (hn : Clear B w n) (hmore : ¬ Clear B w (n + 1 : Nat)) : answerOf L bound q = .short w n := by
  obtain ⟨hlength, -, -⟩ := hq
  obtain ⟨starts, k, -, -, -, hscan⟩ := scanA_of_none_clear hL (by omega) le_rfl hnone
  have hlt : n < q.length := by
    by_contra hge
    exact hnone w hw (hn.mono (by omega))
  have hshort := scanB_of_first_clear hL le_rfl (by omega) hw hclear hfirst hn hmore hlt
  rw [answerOf_eq, hscan, hshort, if_neg Bool.false_ne_true, if_neg hmin]
  rfl

theorem answerOf_noRoom (hnone : ∀ w : Nat, w ≤ q.maxWait → ¬ Clear B w q.length)
    (hshort : q.minLength = 0 ∨ ∀ w : Nat, w ≤ q.maxWait → ¬ Clear B w q.minLength) :
    ∃ starts k, starts 0 = 0 ∧ ScanTrace B q.length q.maxWait starts k ∧ (q.maxWait : Int) < starts k
      ∧ answerOf L bound q = noRoom bound q.length (starts k) := by
  obtain ⟨hlength, -, -⟩ := hq
  obtain ⟨starts, k, h0, htrace, hpast, hscan⟩ := scanA_of_none_clear hL (by omega) le_rfl hnone
  refine ⟨starts, k, h0, htrace, hpast, ?_⟩
  rw [answerOf_eq, hscan, if_neg Bool.false_ne_true]
  by_cases hmin : q.minLength = 0
  · rw [if_pos hmin]
  · rw [if_neg hmin, scanB_of_none_clear hL le_rfl (hshort.resolve_left hmin)]

/-- R143, R144: where a GRANT or SHORT lies is clear, within the horizon. -/
theorem answerOf_clear {w n : Nat} (h : answerOf L bound q = .grant w n ∨ answerOf L bound q = .short w n) :
    w ≤ q.maxWait ∧ Clear B w n ∧ 32 ≤ n ∧ n ≤ q.length := by
  obtain ⟨hlength, -, hmin⟩ := hq
  obtain ⟨starts, k, h0, htrace, hres, hyes, -⟩ := scanA_spec hL (by omega) le_rfl
  have hpos := htrace.le
  by_cases hA : (scanA L q.length q.maxWait (L.length + 1) 0).2 = true
  · obtain ⟨hle, hclear⟩ := hyes hA
    rw [answerOf_eq, if_pos hA, hres] at h
    rcases h with h | h
    · cases h
      exact ⟨by omega, (Int.toNat_of_nonneg (h0 ▸ hpos)).symm ▸ hclear, hlength, le_rfl⟩
    · cases h
  · rw [answerOf_eq, if_neg hA] at h
    obtain ⟨hgrant, hshort⟩ := noRoom_ne_grant bound q.length (scanA L q.length q.maxWait (L.length + 1) 0).1
    by_cases hm : q.minLength = 0
    · rw [if_pos hm] at h
      exact h.elim (fun h => absurd h (hgrant w n)) fun h => absurd h (hshort w n)
    · rw [if_neg hm] at h
      cases hB : scanB L q.length q.minLength (shortCandidates L q.maxWait) with
      | none =>
        rw [hB] at h
        exact h.elim (fun h => absurd h (hgrant w n)) fun h => absurd h (hshort w n)
      | some x =>
        rw [hB] at h
        obtain ⟨hmem, hrun⟩ := scanB_some hB
        obtain ⟨hx0, hxle⟩ := candidate_bounds hmem
        obtain ⟨hxmin, hxlen⟩ := scanB_length hB
        have hxclear := clear_of_freeRun hL hx0 (by omega) hrun
        rcases h with h | h
        · cases h
        · cases h
          exact ⟨by omega, (Int.toNat_of_nonneg hx0).symm ▸ hxclear, (hmin hm).trans hxmin, hxlen⟩

end Answer

/-! ## The effect of a request -/

section Effect

variable {s u : State} {now : AT} {r : Radio} {c : Chan} {q : Request} {cls : ReqClass}

theorem blocks_tookRecord (s : State) (now : AT) (p r : Radio) (c : Chan) (cls : ReqClass) (t0 : AT) :
    (s.tookRecord now p).blocks r c cls t0 = s.blocks r c cls t0 := by
  funext lo hi
  rw [State.blocks, exclusionApplies_tookRecord]
  rfl

/-- R145: the bound is the least gap. -/
theorem boundOf_eq_some {set : TrackSettings} {ovens : List Oven} {o : Oven} (ho : o ∈ ovens)
    (hle : ∀ p ∈ ovens, ovenGap set cls o ≤ ovenGap set cls p) : boundOf set cls ovens = some (ovenGap set cls o) := by
  refine List.min?_eq_some_iff.mpr ⟨List.mem_map.mpr ⟨o, ho, rfl⟩, fun b hb => ?_⟩
  obtain ⟨p, hp, rfl⟩ := List.mem_map.mp hb
  exact hle p hp

theorem noRoom_of_tooLong {b n : Nat} {start : Int} (h : b < n) : noRoom (some b) n start = .tooLong b := if_pos h

theorem noRoom_of_wait {set : TrackSettings} {ovens : List Oven} {n : Nat} {start : Int}
    (h : ∀ o ∈ ovens, n ≤ ovenGap set cls o) : noRoom (boundOf set cls ovens) n start = .wait (min 65535 start.toNat) := by
  cases hb : boundOf set cls ovens with
  | none => rfl
  | some b =>
    obtain ⟨o, ho, rfl⟩ := List.mem_map.mp (List.min?_mem hb)
    exact if_neg (not_lt.mpr (h o ho))

theorem fits_tookRecord (s : State) (now : AT) (p r : Radio) (c : Chan) (cls : ReqClass) (t0 : AT) (w n : Nat) :
    (s.tookRecord now p).fits r c cls t0 w n ↔ s.fits r c cls t0 w n := by
  rw [State.fits, State.fits, blocks_tookRecord]

theorem movesOn_tookRecord (s : State) (now : AT) (p r : Radio) (c : Chan) (cls : ReqClass) (t0 : AT) (n : Nat)
    (start next : Int) :
    (s.tookRecord now p).movesOn r c cls t0 n start next ↔ s.movesOn r c cls t0 n start next := by
  rw [State.movesOn, State.movesOn, blocks_tookRecord]

variable (htracker : TrackerInv s) (hgate : GateInv s) (hq : q.ok)
include htracker hgate hq

theorem computeRequest_of_first_fit {w : Nat} (hw : w ≤ q.maxWait) (hfit : s.fits r c q.cls q.t0 w q.length)
    (hfirst : ∀ v < w, ¬ s.fits r c q.cls q.t0 v q.length) :
    computeRequest r c q s = issue r (bandOf c) q w q.length false s := by
  rw [computeRequest, answerOf_of_first_clear (blockingSet_represents htracker hgate) hq hw hfit hfirst]

/-- R143, R144: a grant that a computed request leaves in the slot lies clear, within the horizon. -/
theorem computeRequest_slot (hslot : (s.gate r).slot = none) {g : Grant}
    (hg : ((computeRequest r c q s).gate r).slot = some g) : ∃ w n : Nat, w ≤ q.maxWait ∧ s.fits r c q.cls q.t0 w n
      ∧ 32 ≤ n ∧ n ≤ q.length ∧ g.cls = q.cls ∧ g.start = q.t0 + BitVec.ofNat 32 w ∧ g.length = n := by
  have hissued {w n : Nat} {short : Bool} (h : ((issue r (bandOf c) q w n short s).gate r).slot = some g) :
      g.cls = q.cls ∧ g.start = q.t0 + BitVec.ofNat 32 w ∧ g.length = n := by
    obtain ⟨hgate, -⟩ := issue_issues r (bandOf c) q w n short s
    rw [hgate] at h
    cases h
    exact ⟨rfl, rfl, rfl⟩
  have hclear {w n : Nat} := answerOf_clear (bound := boundOf s.otk.settings q.cls (shapingOvens s q.cls c)) (w := w) (n := n)
    (blockingSet_represents (r := r) (c := c) htracker hgate) hq
  unfold computeRequest at hg
  split at hg
  · next w n h =>
    obtain ⟨hw, hfit, hlo, hhi⟩ := hclear (.inl h)
    exact ⟨w, n, hw, hfit, hlo, hhi, hissued hg⟩
  · next w n h =>
    obtain ⟨hw, hfit, hlo, hhi⟩ := hclear (.inr h)
    exact ⟨w, n, hw, hfit, hlo, hhi, hissued hg⟩
  · exact absurd (hslot.symm.trans hg) nofun
  · exact absurd (hslot.symm.trans hg) nofun

variable (hnone : ∀ w ≤ q.maxWait, ¬ s.fits r c q.cls q.t0 w q.length)
include hnone

theorem computeRequest_of_short {w n : Nat} (hmin : q.minLength ≠ 0) (hw : w ≤ q.maxWait)
    (hfit : s.fits r c q.cls q.t0 w q.minLength) (hfirst : ∀ v < w, ¬ s.fits r c q.cls q.t0 v q.minLength)
    (hn : s.fits r c q.cls q.t0 w n) (hmore : ¬ s.fits r c q.cls q.t0 w (n + 1)) :
    computeRequest r c q s = issue r (bandOf c) q w n true s := by
  rw [computeRequest,
    answerOf_short (blockingSet_represents htracker hgate) hq hnone hmin hw hfit hfirst hn hmore]

variable (hshort : q.minLength = 0 ∨ ∀ w ≤ q.maxWait, ¬ s.fits r c q.cls q.t0 w q.minLength)
include hshort

theorem computeRequest_of_tooLong {o : Oven} (ho : s.shapes q.cls c o)
    (hle : ∀ p, s.shapes q.cls c p → ovenGap s.otk.settings q.cls o ≤ ovenGap s.otk.settings q.cls p)
    (hlt : ovenGap s.otk.settings q.cls o < q.length) :
    computeRequest r c q s = sendRadio r (.refuse q.tag .tooLong (ovenGap s.otk.settings q.cls o)) s := by
  obtain ⟨starts, k, -, -, -, hanswer⟩ :=
    answerOf_noRoom (bound := boundOf s.otk.settings q.cls (shapingOvens s q.cls c))
      (blockingSet_represents htracker hgate) hq hnone hshort
  have hbound := boundOf_eq_some (mem_shapingOvens.mpr ho) fun p hp => hle p (mem_shapingOvens.mp hp)
  rw [computeRequest, hanswer, hbound, noRoom_of_tooLong hlt]

theorem computeRequest_of_wait (hgap : ∀ o, s.shapes q.cls c o → q.length ≤ ovenGap s.otk.settings q.cls o) :
    ∃ (starts : Nat → Int) (n : Nat), starts 0 = 0
      ∧ (∀ i < n, starts i ≤ q.maxWait ∧ s.movesOn r c q.cls q.t0 q.length (starts i) (starts (i + 1)))
      ∧ (q.maxWait : Int) < starts n
      ∧ computeRequest r c q s = sendRadio r (.wait q.tag (min 65535 (starts n).toNat)) s := by
  obtain ⟨starts, k, h0, htrace, hpast, hanswer⟩ :=
    answerOf_noRoom (bound := boundOf s.otk.settings q.cls (shapingOvens s q.cls c))
      (blockingSet_represents htracker hgate) hq hnone hshort
  refine ⟨starts, k, h0, htrace, hpast, ?_⟩
  rw [computeRequest, hanswer, noRoom_of_wait fun o ho => hgap o (mem_shapingOvens.mp ho)]

end Effect

/-- R139: a request that leaves a grant in an empty slot has been computed. -/
theorem airRequest_slot {s : State} {r : Radio} {c : Chan} {tag cls : Byte} {len minLen maxWait : Nat} {g : Grant}
    (hc : (s.link r).chan = some c) (hslot : (s.gate r).slot = none)
    (hg : ((airRequest r tag len minLen maxWait cls s).gate r).slot = some g) :
    ((computeRequest r c (clampRequest (s.now + BitVec.ofNat 32 (s.gate r).latency) tag len minLen maxWait cls) s).gate
      r).slot = some g := by
  rw [airRequest, hc] at hg
  simp only at hg
  split at hg
  · exact absurd (hslot.symm.trans hg) nofun
  · exact absurd (hslot.symm.trans hg) nofun
  · exact absurd (hslot.symm.trans hg) nofun
  · rw [hslot] at hg
    exact hg

/-- Settles O57: the first part from what a computed answer can be, the second from each outcome of the scans. -/
theorem grantsAvoidWindows : Obligations.GrantsAvoidWindows := by
  unfold Obligations.GrantsAvoidWindows
  refine ⟨fun now r tag len minLen maxWait cls s t c g htracker hgate hl hc hslot hexec hg => ?_,
    fun now r tag len minLen maxWait cls s c htracker hgate hl hc hopen hslot => ?_⟩
  · intro t0
    rw [exec_airRequest hl] at hexec
    obtain rfl := Host.Outcome.next.inj hexec
    have hchan : ((s.tookRecord now r).link r).chan = some c := (State.tookRecord_link_chan s now r r).trans hc
    have hq := clampRequest_ok t0 tag len.toNat minLen.toNat maxWait.toNat cls
    obtain ⟨w, n, hw, hfit, hlo, hhi, hcls, hstart, hlength⟩ := computeRequest_slot (s := s.tookRecord now r) htracker hgate hq
      hslot (airRequest_slot (s := s.tookRecord now r) hchan hslot hg)
    rw [fits_tookRecord] at hfit
    subst hlength
    rw [← hcls] at hfit
    refine ⟨w, hw, hstart, hlo, hhi, fun k o ho hp hcov i => ?_, fun h hex hh => ?_⟩
    · obtain ⟨-, htr⟩ := htracker
      obtain ⟨-, -, hok⟩ := htr k
      have hspan : o.hi.val ≤ 12 := by
        obtain ⟨-, -, -, -, -, -, -, -, -, -, hhi, -⟩ := hok o ho
        exact hhi
      have hle : c.val ≤ o.hi.val := (covers_iff.mp hcov).2
      exact hfit _ _ (.inl ⟨o, ⟨hle.trans hspan, hp, hcov, k, ho⟩, i, rfl, rfl⟩)
    · by_cases hpos : 0 < tdiff (h.start + BitVec.ofNat 32 h.length) t0
      · exact hfit _ _ (.inr ⟨hex, h, hh, rfl, rfl, hpos⟩)
      · exact .inr (by omega)
  · intro u run q whole least horizon t0 fits gap grant
    have hchan : (u.link r).chan = some c := (State.tookRecord_link_chan s now r r).trans hc
    have hrun : run = .next (computeRequest r c (clampRequest t0 tag len.toNat minLen.toNat maxWait.toNat cls) u) :=
      (exec_airRequest hl).trans (congrArg _ (airRequest_of_open hchan hopen hslot))
    have hq := clampRequest_ok t0 tag len.toNat minLen.toNat maxWait.toNat cls
    have hfits (w n : Nat) : fits w n ↔ u.fits r c q t0 w n := (fits_tookRecord s now r r c q t0 w n).symm
    have hleast : (clampRequest t0 tag len.toNat minLen.toNat maxWait.toNat cls).minLength = least := by
      by_cases hz : minLen = 0
      · exact (if_pos (by rw [hz]; rfl)).trans (if_pos hz).symm
      · exact (if_neg fun h => hz (BitVec.eq_of_toNat_eq h)).trans (if_neg hz).symm
    rw [hrun]
    simp only [hfits]
    refine ⟨fun w hw hfit hfirst => ?_, fun hnone => ⟨fun hmin w n hw hfit hfirst hn hmore => ?_, fun hshort =>
      ⟨fun o ho hle hlt => ?_, fun hgap => ?_⟩⟩⟩
    · refine ⟨_, congrArg _ (computeRequest_of_first_fit (s := u) htracker hgate hq hw hfit hfirst), ?_⟩
      exact issue_issues r (bandOf c) _ w whole false u
    · refine ⟨_, congrArg _ (computeRequest_of_short (s := u) htracker hgate hq hnone (by rw [hleast]; exact hmin) hw
        (by rw [hleast]; exact hfit) (by rw [hleast]; exact hfirst) hn hmore), ?_⟩
      exact issue_issues r (bandOf c) _ w n true u
    · rw [computeRequest_of_tooLong (s := u) htracker hgate hq hnone (by rw [hleast]; exact hshort) ho hle hlt]
      rfl
    · obtain ⟨starts, n, h0, htrace, hpast, hwait⟩ := computeRequest_of_wait (s := u) (r := r) (c := c) htracker hgate hq hnone
        (by rw [hleast]; exact hshort) hgap
      refine ⟨starts, n, h0, fun i hi => ?_, hpast, congrArg _ hwait⟩
      obtain ⟨hle, hmove⟩ := htrace i hi
      exact ⟨hle, (movesOn_tookRecord s now r r c q t0 whole _ _).mp hmove⟩

end Sys2Proof.Machine
end
